-- ==== Sys2Proof/Word.lean ====
section
/-! DEFINITION. The widths of the CPU: 8-bit data, 16-bit addresses (00_scope.md R6). -/

namespace Sys2Proof

/-- Eight bits: the CPU data width (00_scope.md R6). -/
abbrev Byte := BitVec 8

/-- Sixteen bits: the program counter and the CPU address width (00_scope.md R6). -/
abbrev Word := BitVec 16

end Sys2Proof
end

