-- ==== Sys2Proof/Syntax.lean ====
section
/-! DEFINITION. The instruction set as syntax: addressing modes, access classes, mnemonics and the one inductive of
instructions, one constructor per row of spec/opcode_table.json. 30_encoding.md R110 to R119. -/

namespace Sys2Proof

/-- The thirteen addressing modes (30_encoding.md R111). -/
inductive Mode where
  | imp | acc | imm | zp | zpx | zpy | abs | abx | aby | ind | izx | izy | rel
  deriving DecidableEq, Repr

/-- The access classes (30_encoding.md R116): read, write, read-modify-write, own sequence. -/
inductive AccessClass where
  | read | write | rmw | own
  deriving DecidableEq, Repr

/-- The 76 mnemonics of the decode table (30_encoding.md R115). -/
inductive Kind where
  | brk | ora | jam | slo | nop | asl | php | anc | bpl | clc | jsr | and | rla | bit | rol | plp | bmi | sec
  | rti | eor | sre | lsr | pha | alr | jmp | bvc | cli | rts | adc | rra | ror | pla | arr | bvs | sei | sta
  | sax | sty | stx | dey | txa | ane | bcc | sha | tya | txs | tas | shy | shx | ldy | lda | ldx | lax | tay
  | tax | lxa | bcs | clv | tsx | las | cpy | cmp | dcp | dec | iny | dex | axs | bne | cld | cpx | sbc | isb
  | inc | inx | beq | sed
  deriving DecidableEq, Repr

/-- One constructor per row of the opcode table, named by mnemonic and mode; rows that share both carry their opcode.
`b` is the operand byte, `lo` and `hi` the two of an absolute operand, as `FetchOperand` reads them after the opcode
(40_addressing.md R141). `jsr` carries its two as the 16-bit `target` of R111; its own sequence reads the high one again, after the pushes
(43_control_flags.md R260). The rows without an operand byte stand last. -/
inductive Instr where
  /-- $01 ORA izx (R215) -/
  | oraIzx (b : Byte)
  /-- $03 SLO izx (R291) -/
  | sloIzx (b : Byte)
  /-- $04 NOP zp (R299) -/
  | nopZp04 (b : Byte)
  /-- $05 ORA zp (R215) -/
  | oraZp (b : Byte)
  /-- $06 ASL zp (R227) -/
  | aslZp (b : Byte)
  /-- $07 SLO zp (R291) -/
  | sloZp (b : Byte)
  /-- $09 ORA imm (R215) -/
  | oraImm (b : Byte)
  /-- $0B ANC imm (R301) -/
  | ancImm0B (b : Byte)
  /-- $0C NOP abs (R299) -/
  | nopAbs (lo hi : Byte)
  /-- $0D ORA abs (R215) -/
  | oraAbs (lo hi : Byte)
  /-- $0E ASL abs (R227) -/
  | aslAbs (lo hi : Byte)
  /-- $0F SLO abs (R291) -/
  | sloAbs (lo hi : Byte)
  /-- $10 BPL rel (R251) -/
  | bpl (b : Byte)
  /-- $11 ORA izy (R215) -/
  | oraIzy (b : Byte)
  /-- $13 SLO izy (R291) -/
  | sloIzy (b : Byte)
  /-- $14 NOP zpx (R299) -/
  | nopZpx14 (b : Byte)
  /-- $15 ORA zpx (R215) -/
  | oraZpx (b : Byte)
  /-- $16 ASL zpx (R227) -/
  | aslZpx (b : Byte)
  /-- $17 SLO zpx (R291) -/
  | sloZpx (b : Byte)
  /-- $19 ORA aby (R215) -/
  | oraAby (lo hi : Byte)
  /-- $1B SLO aby (R291) -/
  | sloAby (lo hi : Byte)
  /-- $1C NOP abx (R299) -/
  | nopAbx1C (lo hi : Byte)
  /-- $1D ORA abx (R215) -/
  | oraAbx (lo hi : Byte)
  /-- $1E ASL abx (R227) -/
  | aslAbx (lo hi : Byte)
  /-- $1F SLO abx (R291) -/
  | sloAbx (lo hi : Byte)
  /-- $20 JSR abs (R260) -/
  | jsr (target : Word)
  /-- $21 AND izx (R214) -/
  | andIzx (b : Byte)
  /-- $23 RLA izx (R292) -/
  | rlaIzx (b : Byte)
  /-- $24 BIT zp (R217) -/
  | bitZp (b : Byte)
  /-- $25 AND zp (R214) -/
  | andZp (b : Byte)
  /-- $26 ROL zp (R229) -/
  | rolZp (b : Byte)
  /-- $27 RLA zp (R292) -/
  | rlaZp (b : Byte)
  /-- $29 AND imm (R214) -/
  | andImm (b : Byte)
  /-- $2B ANC imm (R301) -/
  | ancImm2B (b : Byte)
  /-- $2C BIT abs (R217) -/
  | bitAbs (lo hi : Byte)
  /-- $2D AND abs (R214) -/
  | andAbs (lo hi : Byte)
  /-- $2E ROL abs (R229) -/
  | rolAbs (lo hi : Byte)
  /-- $2F RLA abs (R292) -/
  | rlaAbs (lo hi : Byte)
  /-- $30 BMI rel (R252) -/
  | bmi (b : Byte)
  /-- $31 AND izy (R214) -/
  | andIzy (b : Byte)
  /-- $33 RLA izy (R292) -/
  | rlaIzy (b : Byte)
  /-- $34 NOP zpx (R299) -/
  | nopZpx34 (b : Byte)
  /-- $35 AND zpx (R214) -/
  | andZpx (b : Byte)
  /-- $36 ROL zpx (R229) -/
  | rolZpx (b : Byte)
  /-- $37 RLA zpx (R292) -/
  | rlaZpx (b : Byte)
  /-- $39 AND aby (R214) -/
  | andAby (lo hi : Byte)
  /-- $3B RLA aby (R292) -/
  | rlaAby (lo hi : Byte)
  /-- $3C NOP abx (R299) -/
  | nopAbx3C (lo hi : Byte)
  /-- $3D AND abx (R214) -/
  | andAbx (lo hi : Byte)
  /-- $3E ROL abx (R229) -/
  | rolAbx (lo hi : Byte)
  /-- $3F RLA abx (R292) -/
  | rlaAbx (lo hi : Byte)
  /-- $41 EOR izx (R216) -/
  | eorIzx (b : Byte)
  /-- $43 SRE izx (R293) -/
  | sreIzx (b : Byte)
  /-- $44 NOP zp (R299) -/
  | nopZp44 (b : Byte)
  /-- $45 EOR zp (R216) -/
  | eorZp (b : Byte)
  /-- $46 LSR zp (R228) -/
  | lsrZp (b : Byte)
  /-- $47 SRE zp (R293) -/
  | sreZp (b : Byte)
  /-- $49 EOR imm (R216) -/
  | eorImm (b : Byte)
  /-- $4B ALR imm (R302) -/
  | alr (b : Byte)
  /-- $4C JMP abs (R259) -/
  | jmpAbs (lo hi : Byte)
  /-- $4D EOR abs (R216) -/
  | eorAbs (lo hi : Byte)
  /-- $4E LSR abs (R228) -/
  | lsrAbs (lo hi : Byte)
  /-- $4F SRE abs (R293) -/
  | sreAbs (lo hi : Byte)
  /-- $50 BVC rel (R253) -/
  | bvc (b : Byte)
  /-- $51 EOR izy (R216) -/
  | eorIzy (b : Byte)
  /-- $53 SRE izy (R293) -/
  | sreIzy (b : Byte)
  /-- $54 NOP zpx (R299) -/
  | nopZpx54 (b : Byte)
  /-- $55 EOR zpx (R216) -/
  | eorZpx (b : Byte)
  /-- $56 LSR zpx (R228) -/
  | lsrZpx (b : Byte)
  /-- $57 SRE zpx (R293) -/
  | sreZpx (b : Byte)
  /-- $59 EOR aby (R216) -/
  | eorAby (lo hi : Byte)
  /-- $5B SRE aby (R293) -/
  | sreAby (lo hi : Byte)
  /-- $5C NOP abx (R299) -/
  | nopAbx5C (lo hi : Byte)
  /-- $5D EOR abx (R216) -/
  | eorAbx (lo hi : Byte)
  /-- $5E LSR abx (R228) -/
  | lsrAbx (lo hi : Byte)
  /-- $5F SRE abx (R293) -/
  | sreAbx (lo hi : Byte)
  /-- $61 ADC izx (R212) -/
  | adcIzx (b : Byte)
  /-- $63 RRA izx (R294) -/
  | rraIzx (b : Byte)
  /-- $64 NOP zp (R299) -/
  | nopZp64 (b : Byte)
  /-- $65 ADC zp (R212) -/
  | adcZp (b : Byte)
  /-- $66 ROR zp (R230) -/
  | rorZp (b : Byte)
  /-- $67 RRA zp (R294) -/
  | rraZp (b : Byte)
  /-- $69 ADC imm (R212) -/
  | adcImm (b : Byte)
  /-- $6B ARR imm (R303) -/
  | arr (b : Byte)
  /-- $6C JMP ind (R259) -/
  | jmpInd (lo hi : Byte)
  /-- $6D ADC abs (R212) -/
  | adcAbs (lo hi : Byte)
  /-- $6E ROR abs (R230) -/
  | rorAbs (lo hi : Byte)
  /-- $6F RRA abs (R294) -/
  | rraAbs (lo hi : Byte)
  /-- $70 BVS rel (R254) -/
  | bvs (b : Byte)
  /-- $71 ADC izy (R212) -/
  | adcIzy (b : Byte)
  /-- $73 RRA izy (R294) -/
  | rraIzy (b : Byte)
  /-- $74 NOP zpx (R299) -/
  | nopZpx74 (b : Byte)
  /-- $75 ADC zpx (R212) -/
  | adcZpx (b : Byte)
  /-- $76 ROR zpx (R230) -/
  | rorZpx (b : Byte)
  /-- $77 RRA zpx (R294) -/
  | rraZpx (b : Byte)
  /-- $79 ADC aby (R212) -/
  | adcAby (lo hi : Byte)
  /-- $7B RRA aby (R294) -/
  | rraAby (lo hi : Byte)
  /-- $7C NOP abx (R299) -/
  | nopAbx7C (lo hi : Byte)
  /-- $7D ADC abx (R212) -/
  | adcAbx (lo hi : Byte)
  /-- $7E ROR abx (R230) -/
  | rorAbx (lo hi : Byte)
  /-- $7F RRA abx (R294) -/
  | rraAbx (lo hi : Byte)
  /-- $80 NOP imm (R299) -/
  | nopImm80 (b : Byte)
  /-- $81 STA izx (R183) -/
  | staIzx (b : Byte)
  /-- $82 NOP imm (R299) -/
  | nopImm82 (b : Byte)
  /-- $83 SAX izx (R298) -/
  | saxIzx (b : Byte)
  /-- $84 STY zp (R185) -/
  | styZp (b : Byte)
  /-- $85 STA zp (R183) -/
  | staZp (b : Byte)
  /-- $86 STX zp (R184) -/
  | stxZp (b : Byte)
  /-- $87 SAX zp (R298) -/
  | saxZp (b : Byte)
  /-- $89 NOP imm (R299) -/
  | nopImm89 (b : Byte)
  /-- $8B ANE imm (R314) -/
  | ane (b : Byte)
  /-- $8C STY abs (R185) -/
  | styAbs (lo hi : Byte)
  /-- $8D STA abs (R183) -/
  | staAbs (lo hi : Byte)
  /-- $8E STX abs (R184) -/
  | stxAbs (lo hi : Byte)
  /-- $8F SAX abs (R298) -/
  | saxAbs (lo hi : Byte)
  /-- $90 BCC rel (R255) -/
  | bcc (b : Byte)
  /-- $91 STA izy (R183) -/
  | staIzy (b : Byte)
  /-- $93 SHA izy (R316) -/
  | shaIzy (b : Byte)
  /-- $94 STY zpx (R185) -/
  | styZpx (b : Byte)
  /-- $95 STA zpx (R183) -/
  | staZpx (b : Byte)
  /-- $96 STX zpy (R184) -/
  | stxZpy (b : Byte)
  /-- $97 SAX zpy (R298) -/
  | saxZpy (b : Byte)
  /-- $99 STA aby (R183) -/
  | staAby (lo hi : Byte)
  /-- $9B TAS aby (R319) -/
  | tas (lo hi : Byte)
  /-- $9C SHY abx (R318) -/
  | shy (lo hi : Byte)
  /-- $9D STA abx (R183) -/
  | staAbx (lo hi : Byte)
  /-- $9E SHX aby (R317) -/
  | shx (lo hi : Byte)
  /-- $9F SHA aby (R316) -/
  | shaAby (lo hi : Byte)
  /-- $A0 LDY imm (R182) -/
  | ldyImm (b : Byte)
  /-- $A1 LDA izx (R180) -/
  | ldaIzx (b : Byte)
  /-- $A2 LDX imm (R181) -/
  | ldxImm (b : Byte)
  /-- $A3 LAX izx (R297) -/
  | laxIzx (b : Byte)
  /-- $A4 LDY zp (R182) -/
  | ldyZp (b : Byte)
  /-- $A5 LDA zp (R180) -/
  | ldaZp (b : Byte)
  /-- $A6 LDX zp (R181) -/
  | ldxZp (b : Byte)
  /-- $A7 LAX zp (R297) -/
  | laxZp (b : Byte)
  /-- $A9 LDA imm (R180) -/
  | ldaImm (b : Byte)
  /-- $AB LXA imm (R315) -/
  | lxa (b : Byte)
  /-- $AC LDY abs (R182) -/
  | ldyAbs (lo hi : Byte)
  /-- $AD LDA abs (R180) -/
  | ldaAbs (lo hi : Byte)
  /-- $AE LDX abs (R181) -/
  | ldxAbs (lo hi : Byte)
  /-- $AF LAX abs (R297) -/
  | laxAbs (lo hi : Byte)
  /-- $B0 BCS rel (R256) -/
  | bcs (b : Byte)
  /-- $B1 LDA izy (R180) -/
  | ldaIzy (b : Byte)
  /-- $B3 LAX izy (R297) -/
  | laxIzy (b : Byte)
  /-- $B4 LDY zpx (R182) -/
  | ldyZpx (b : Byte)
  /-- $B5 LDA zpx (R180) -/
  | ldaZpx (b : Byte)
  /-- $B6 LDX zpy (R181) -/
  | ldxZpy (b : Byte)
  /-- $B7 LAX zpy (R297) -/
  | laxZpy (b : Byte)
  /-- $B9 LDA aby (R180) -/
  | ldaAby (lo hi : Byte)
  /-- $BB LAS aby (R305) -/
  | las (lo hi : Byte)
  /-- $BC LDY abx (R182) -/
  | ldyAbx (lo hi : Byte)
  /-- $BD LDA abx (R180) -/
  | ldaAbx (lo hi : Byte)
  /-- $BE LDX aby (R181) -/
  | ldxAby (lo hi : Byte)
  /-- $BF LAX aby (R297) -/
  | laxAby (lo hi : Byte)
  /-- $C0 CPY imm (R220) -/
  | cpyImm (b : Byte)
  /-- $C1 CMP izx (R218) -/
  | cmpIzx (b : Byte)
  /-- $C2 NOP imm (R299) -/
  | nopImmC2 (b : Byte)
  /-- $C3 DCP izx (R295) -/
  | dcpIzx (b : Byte)
  /-- $C4 CPY zp (R220) -/
  | cpyZp (b : Byte)
  /-- $C5 CMP zp (R218) -/
  | cmpZp (b : Byte)
  /-- $C6 DEC zp (R222) -/
  | decZp (b : Byte)
  /-- $C7 DCP zp (R295) -/
  | dcpZp (b : Byte)
  /-- $C9 CMP imm (R218) -/
  | cmpImm (b : Byte)
  /-- $CB AXS imm (R304) -/
  | axs (b : Byte)
  /-- $CC CPY abs (R220) -/
  | cpyAbs (lo hi : Byte)
  /-- $CD CMP abs (R218) -/
  | cmpAbs (lo hi : Byte)
  /-- $CE DEC abs (R222) -/
  | decAbs (lo hi : Byte)
  /-- $CF DCP abs (R295) -/
  | dcpAbs (lo hi : Byte)
  /-- $D0 BNE rel (R257) -/
  | bne (b : Byte)
  /-- $D1 CMP izy (R218) -/
  | cmpIzy (b : Byte)
  /-- $D3 DCP izy (R295) -/
  | dcpIzy (b : Byte)
  /-- $D4 NOP zpx (R299) -/
  | nopZpxD4 (b : Byte)
  /-- $D5 CMP zpx (R218) -/
  | cmpZpx (b : Byte)
  /-- $D6 DEC zpx (R222) -/
  | decZpx (b : Byte)
  /-- $D7 DCP zpx (R295) -/
  | dcpZpx (b : Byte)
  /-- $D9 CMP aby (R218) -/
  | cmpAby (lo hi : Byte)
  /-- $DB DCP aby (R295) -/
  | dcpAby (lo hi : Byte)
  /-- $DC NOP abx (R299) -/
  | nopAbxDC (lo hi : Byte)
  /-- $DD CMP abx (R218) -/
  | cmpAbx (lo hi : Byte)
  /-- $DE DEC abx (R222) -/
  | decAbx (lo hi : Byte)
  /-- $DF DCP abx (R295) -/
  | dcpAbx (lo hi : Byte)
  /-- $E0 CPX imm (R219) -/
  | cpxImm (b : Byte)
  /-- $E1 SBC izx (R213) -/
  | sbcIzx (b : Byte)
  /-- $E2 NOP imm (R299) -/
  | nopImmE2 (b : Byte)
  /-- $E3 ISB izx (R296) -/
  | isbIzx (b : Byte)
  /-- $E4 CPX zp (R219) -/
  | cpxZp (b : Byte)
  /-- $E5 SBC zp (R213) -/
  | sbcZp (b : Byte)
  /-- $E6 INC zp (R221) -/
  | incZp (b : Byte)
  /-- $E7 ISB zp (R296) -/
  | isbZp (b : Byte)
  /-- $E9 SBC imm (R213) -/
  | sbcImm (b : Byte)
  /-- $EB SBC imm (R300) -/
  | sbcImmEB (b : Byte)
  /-- $EC CPX abs (R219) -/
  | cpxAbs (lo hi : Byte)
  /-- $ED SBC abs (R213) -/
  | sbcAbs (lo hi : Byte)
  /-- $EE INC abs (R221) -/
  | incAbs (lo hi : Byte)
  /-- $EF ISB abs (R296) -/
  | isbAbs (lo hi : Byte)
  /-- $F0 BEQ rel (R258) -/
  | beq (b : Byte)
  /-- $F1 SBC izy (R213) -/
  | sbcIzy (b : Byte)
  /-- $F3 ISB izy (R296) -/
  | isbIzy (b : Byte)
  /-- $F4 NOP zpx (R299) -/
  | nopZpxF4 (b : Byte)
  /-- $F5 SBC zpx (R213) -/
  | sbcZpx (b : Byte)
  /-- $F6 INC zpx (R221) -/
  | incZpx (b : Byte)
  /-- $F7 ISB zpx (R296) -/
  | isbZpx (b : Byte)
  /-- $F9 SBC aby (R213) -/
  | sbcAby (lo hi : Byte)
  /-- $FB ISB aby (R296) -/
  | isbAby (lo hi : Byte)
  /-- $FC NOP abx (R299) -/
  | nopAbxFC (lo hi : Byte)
  /-- $FD SBC abx (R213) -/
  | sbcAbx (lo hi : Byte)
  /-- $FE INC abx (R221) -/
  | incAbx (lo hi : Byte)
  /-- $FF ISB abx (R296) -/
  | isbAbx (lo hi : Byte)
  /-- $00 BRK imp (R262) -/
  | brk
  /-- $02 JAM imp (R320) -/
  | jam02
  /-- $08 PHP imp (R193) -/
  | php
  /-- $0A ASL acc (R227) -/
  | aslAcc
  /-- $12 JAM imp (R320) -/
  | jam12
  /-- $18 CLC imp (R264) -/
  | clc
  /-- $1A NOP imp (R299) -/
  | nopImp1A
  /-- $22 JAM imp (R320) -/
  | jam22
  /-- $28 PLP imp (R195) -/
  | plp
  /-- $2A ROL acc (R229) -/
  | rolAcc
  /-- $32 JAM imp (R320) -/
  | jam32
  /-- $38 SEC imp (R265) -/
  | sec
  /-- $3A NOP imp (R299) -/
  | nopImp3A
  /-- $40 RTI imp (R263) -/
  | rti
  /-- $42 JAM imp (R320) -/
  | jam42
  /-- $48 PHA imp (R192) -/
  | pha
  /-- $4A LSR acc (R228) -/
  | lsrAcc
  /-- $52 JAM imp (R320) -/
  | jam52
  /-- $58 CLI imp (R266) -/
  | cli
  /-- $5A NOP imp (R299) -/
  | nopImp5A
  /-- $60 RTS imp (R261) -/
  | rts
  /-- $62 JAM imp (R320) -/
  | jam62
  /-- $68 PLA imp (R194) -/
  | pla
  /-- $6A ROR acc (R230) -/
  | rorAcc
  /-- $72 JAM imp (R320) -/
  | jam72
  /-- $78 SEI imp (R267) -/
  | sei
  /-- $7A NOP imp (R299) -/
  | nopImp7A
  /-- $88 DEY imp (R226) -/
  | dey
  /-- $8A TXA imp (R188) -/
  | txa
  /-- $92 JAM imp (R320) -/
  | jam92
  /-- $98 TYA imp (R189) -/
  | tya
  /-- $9A TXS imp (R191) -/
  | txs
  /-- $A8 TAY imp (R187) -/
  | tay
  /-- $AA TAX imp (R186) -/
  | tax
  /-- $B2 JAM imp (R320) -/
  | jamB2
  /-- $B8 CLV imp (R268) -/
  | clv
  /-- $BA TSX imp (R190) -/
  | tsx
  /-- $C8 INY imp (R224) -/
  | iny
  /-- $CA DEX imp (R225) -/
  | dex
  /-- $D2 JAM imp (R320) -/
  | jamD2
  /-- $D8 CLD imp (R269) -/
  | cld
  /-- $DA NOP imp (R299) -/
  | nopImpDA
  /-- $E8 INX imp (R223) -/
  | inx
  /-- $EA NOP imp (R271) -/
  | nop
  /-- $F2 JAM imp (R320) -/
  | jamF2
  /-- $F8 SED imp (R270) -/
  | sed
  /-- $FA NOP imp (R299) -/
  | nopImpFA
  deriving DecidableEq, Repr

end Sys2Proof
end

