-- ==== Sys2Proof/WellFormed.lean ====
section
/-! DEFINITION. What is well formed: an instruction, and a cartridge image with its save file.
30_encoding.md R118; 64_cartridge_mappers.md R570, R571, R573. -/

namespace Sys2Proof

/-- Every term of `Instr` is well formed: its operands are bytes by their type, and every opcode decodes (R118), so
no check is left to make. The checks of this file are those on a cartridge image. -/
def Instr.wf (_ : Instr) : Bool := true

/-! ## The header fields of a ROM image (R570) -/

/-- Byte `k` of an image. -/
def imageByte (file : List Byte) (k : Nat) : Byte := file.getD k 0

/-- The mapper number, with the extended header's bits 11:8 (R571). -/
def imageMapper (file : List Byte) : Nat :=
  let ext := (imageByte file 7).toNat / 4 % 4 = 2
  (imageByte file 6).toNat / 16 + (imageByte file 7).toNat / 16 * 16
    + (if ext then (imageByte file 8).toNat % 16 * 256 else 0)

/-- PRG ROM size in bytes (R571). -/
def imagePrgSize (file : List Byte) : Nat := 16384 * (imageByte file 4).toNat

/-- CHR ROM size in bytes (R571). -/
def imageChrSize (file : List Byte) : Nat := 8192 * (imageByte file 5).toNat

/-- Where PRG data starts: after the header and the trainer, if present (R571). -/
def imagePrgOffset (file : List Byte) : Nat := if (imageByte file 6).getLsbD 2 then 16 + 512 else 16

/-- The battery bit (R571). -/
def imageBattery (file : List Byte) : Bool := (imageByte file 6).getLsbD 1

/-! ## The checks of a load (R571, R573) -/

/-- The image holds a whole header with the signature. -/
def imageSigned (file : List Byte) : Bool :=
  decide (16 ≤ file.length) && (file.take 4 == [0x4E#8, 0x45#8, 0x53#8, 0x1A#8])

/-- The image holds PRG data, and all the PRG and CHR data its header announces. -/
def imageComplete (file : List Byte) : Bool :=
  imagePrgSize file != 0 && decide (imagePrgOffset file + imagePrgSize file + imageChrSize file ≤ file.length)

/-- The mapper number is one of the five variants. -/
def imageSupported (file : List Byte) : Bool := decide (imageMapper file ≤ 4)

/-- A save file that exists holds exactly 8,192 bytes; it is looked at only with a battery. -/
def saveFileOk (file : List Byte) (save : Option (List Byte)) : Bool :=
  !imageBattery file || save.all fun bytes => bytes.length == 8192

end Sys2Proof
end

