-- ==== Sys2Proof/Decode.lean ====
section
/-! DEFINITION. The 256-entry decode table, the decoder and the encoder. 30_encoding.md R110 to R119. -/

namespace Sys2Proof

/-! ## The descriptor table (R115, R117, R119) -/

/-- The decode descriptor of one opcode: mnemonic, mode and the official flag (R119); the read-modify-write flag is
`Descriptor.isRmw`. -/
structure Descriptor where
  kind : Kind
  mode : Mode
  isOfficial : Bool
  deriving DecidableEq, Repr

/-- An official cell of the table of R115. -/
def off (k : Kind) (m : Mode) : Descriptor := { kind := k, mode := m, isOfficial := true }

/-- An unofficial (starred) cell of the table of R115. -/
def unf (k : Kind) (m : Mode) : Descriptor := { kind := k, mode := m, isOfficial := false }

/-- Row 0x of R115. -/
def opcodeRow0 : List Descriptor :=
  [off .brk .imp, off .ora .izx, unf .jam .imp, unf .slo .izx,
   unf .nop .zp, off .ora .zp, off .asl .zp, unf .slo .zp,
   off .php .imp, off .ora .imm, off .asl .acc, unf .anc .imm,
   unf .nop .abs, off .ora .abs, off .asl .abs, unf .slo .abs]

/-- Row 1x of R115. -/
def opcodeRow1 : List Descriptor :=
  [off .bpl .rel, off .ora .izy, unf .jam .imp, unf .slo .izy,
   unf .nop .zpx, off .ora .zpx, off .asl .zpx, unf .slo .zpx,
   off .clc .imp, off .ora .aby, unf .nop .imp, unf .slo .aby,
   unf .nop .abx, off .ora .abx, off .asl .abx, unf .slo .abx]

/-- Row 2x of R115. -/
def opcodeRow2 : List Descriptor :=
  [off .jsr .abs, off .and .izx, unf .jam .imp, unf .rla .izx,
   off .bit .zp, off .and .zp, off .rol .zp, unf .rla .zp,
   off .plp .imp, off .and .imm, off .rol .acc, unf .anc .imm,
   off .bit .abs, off .and .abs, off .rol .abs, unf .rla .abs]

/-- Row 3x of R115. -/
def opcodeRow3 : List Descriptor :=
  [off .bmi .rel, off .and .izy, unf .jam .imp, unf .rla .izy,
   unf .nop .zpx, off .and .zpx, off .rol .zpx, unf .rla .zpx,
   off .sec .imp, off .and .aby, unf .nop .imp, unf .rla .aby,
   unf .nop .abx, off .and .abx, off .rol .abx, unf .rla .abx]

/-- Row 4x of R115. -/
def opcodeRow4 : List Descriptor :=
  [off .rti .imp, off .eor .izx, unf .jam .imp, unf .sre .izx,
   unf .nop .zp, off .eor .zp, off .lsr .zp, unf .sre .zp,
   off .pha .imp, off .eor .imm, off .lsr .acc, unf .alr .imm,
   off .jmp .abs, off .eor .abs, off .lsr .abs, unf .sre .abs]

/-- Row 5x of R115. -/
def opcodeRow5 : List Descriptor :=
  [off .bvc .rel, off .eor .izy, unf .jam .imp, unf .sre .izy,
   unf .nop .zpx, off .eor .zpx, off .lsr .zpx, unf .sre .zpx,
   off .cli .imp, off .eor .aby, unf .nop .imp, unf .sre .aby,
   unf .nop .abx, off .eor .abx, off .lsr .abx, unf .sre .abx]

/-- Row 6x of R115. -/
def opcodeRow6 : List Descriptor :=
  [off .rts .imp, off .adc .izx, unf .jam .imp, unf .rra .izx,
   unf .nop .zp, off .adc .zp, off .ror .zp, unf .rra .zp,
   off .pla .imp, off .adc .imm, off .ror .acc, unf .arr .imm,
   off .jmp .ind, off .adc .abs, off .ror .abs, unf .rra .abs]

/-- Row 7x of R115. -/
def opcodeRow7 : List Descriptor :=
  [off .bvs .rel, off .adc .izy, unf .jam .imp, unf .rra .izy,
   unf .nop .zpx, off .adc .zpx, off .ror .zpx, unf .rra .zpx,
   off .sei .imp, off .adc .aby, unf .nop .imp, unf .rra .aby,
   unf .nop .abx, off .adc .abx, off .ror .abx, unf .rra .abx]

/-- Row 8x of R115. -/
def opcodeRow8 : List Descriptor :=
  [unf .nop .imm, off .sta .izx, unf .nop .imm, unf .sax .izx,
   off .sty .zp, off .sta .zp, off .stx .zp, unf .sax .zp,
   off .dey .imp, unf .nop .imm, off .txa .imp, unf .ane .imm,
   off .sty .abs, off .sta .abs, off .stx .abs, unf .sax .abs]

/-- Row 9x of R115. -/
def opcodeRow9 : List Descriptor :=
  [off .bcc .rel, off .sta .izy, unf .jam .imp, unf .sha .izy,
   off .sty .zpx, off .sta .zpx, off .stx .zpy, unf .sax .zpy,
   off .tya .imp, off .sta .aby, off .txs .imp, unf .tas .aby,
   unf .shy .abx, off .sta .abx, unf .shx .aby, unf .sha .aby]

/-- Row Ax of R115. -/
def opcodeRowA : List Descriptor :=
  [off .ldy .imm, off .lda .izx, off .ldx .imm, unf .lax .izx,
   off .ldy .zp, off .lda .zp, off .ldx .zp, unf .lax .zp,
   off .tay .imp, off .lda .imm, off .tax .imp, unf .lxa .imm,
   off .ldy .abs, off .lda .abs, off .ldx .abs, unf .lax .abs]

/-- Row Bx of R115. -/
def opcodeRowB : List Descriptor :=
  [off .bcs .rel, off .lda .izy, unf .jam .imp, unf .lax .izy,
   off .ldy .zpx, off .lda .zpx, off .ldx .zpy, unf .lax .zpy,
   off .clv .imp, off .lda .aby, off .tsx .imp, unf .las .aby,
   off .ldy .abx, off .lda .abx, off .ldx .aby, unf .lax .aby]

/-- Row Cx of R115. -/
def opcodeRowC : List Descriptor :=
  [off .cpy .imm, off .cmp .izx, unf .nop .imm, unf .dcp .izx,
   off .cpy .zp, off .cmp .zp, off .dec .zp, unf .dcp .zp,
   off .iny .imp, off .cmp .imm, off .dex .imp, unf .axs .imm,
   off .cpy .abs, off .cmp .abs, off .dec .abs, unf .dcp .abs]

/-- Row Dx of R115. -/
def opcodeRowD : List Descriptor :=
  [off .bne .rel, off .cmp .izy, unf .jam .imp, unf .dcp .izy,
   unf .nop .zpx, off .cmp .zpx, off .dec .zpx, unf .dcp .zpx,
   off .cld .imp, off .cmp .aby, unf .nop .imp, unf .dcp .aby,
   unf .nop .abx, off .cmp .abx, off .dec .abx, unf .dcp .abx]

/-- Row Ex of R115. -/
def opcodeRowE : List Descriptor :=
  [off .cpx .imm, off .sbc .izx, unf .nop .imm, unf .isb .izx,
   off .cpx .zp, off .sbc .zp, off .inc .zp, unf .isb .zp,
   off .inx .imp, off .sbc .imm, off .nop .imp, unf .sbc .imm,
   off .cpx .abs, off .sbc .abs, off .inc .abs, unf .isb .abs]

/-- Row Fx of R115. -/
def opcodeRowF : List Descriptor :=
  [off .beq .rel, off .sbc .izy, unf .jam .imp, unf .isb .izy,
   unf .nop .zpx, off .sbc .zpx, off .inc .zpx, unf .isb .zpx,
   off .sed .imp, off .sbc .aby, unf .nop .imp, unf .isb .aby,
   unf .nop .abx, off .sbc .abx, off .inc .abx, unf .isb .abx]

/-- The whole table, opcode $00 first (R115). -/
def opcodeTable : List Descriptor :=
  opcodeRow0 ++ opcodeRow1 ++ opcodeRow2 ++ opcodeRow3 ++ opcodeRow4 ++ opcodeRow5 ++ opcodeRow6 ++ opcodeRow7
    ++ opcodeRow8 ++ opcodeRow9 ++ opcodeRowA ++ opcodeRowB ++ opcodeRowC ++ opcodeRowD ++ opcodeRowE ++ opcodeRowF

/-- The descriptor of an opcode (R119). Every byte value has one (R118). -/
def descriptor (op : Byte) : Descriptor := opcodeTable.getD op.toNat (unf .jam .imp)

/-- The mnemonics whose memory forms are read-modify-write (R116). -/
def Kind.isRmw : Kind → Bool
  | .asl | .lsr | .rol | .ror | .inc | .dec | .slo | .rla | .sre | .rra | .dcp | .isb => true
  | _ => false

/-- The mnemonics of the write class (R116). -/
def Kind.isStore : Kind → Bool
  | .sta | .stx | .sty | .sax | .sha | .shx | .shy | .tas => true
  | _ => false

/-- The access class of an opcode (R116). -/
def Descriptor.cls (d : Descriptor) : AccessClass :=
  match d.mode with
  | .imp | .acc | .rel | .ind => .own
  | .imm => .read
  | _ =>
    if d.kind = .jsr ∨ d.kind = .jmp then .own
    else if d.kind.isStore then .write
    else if d.kind.isRmw then .rmw
    else .read

/-- The descriptor's read-modify-write flag (R119). -/
def Descriptor.isRmw (d : Descriptor) : Bool := d.cls == .rmw

/-- The length in bytes of an instruction by its mode (R111). -/
def Mode.length : Mode → Nat
  | .imp | .acc => 1
  | .imm | .zp | .zpx | .zpy | .izx | .izy | .rel => 2
  | .abs | .abx | .aby | .ind => 3

/-- The halt opcodes (R118). -/
def isJam (op : Byte) : Bool := (descriptor op).kind == .jam

/-- The seven unstable opcodes (R118, 44_unofficial.md R290). -/
def isUnstable (op : Byte) : Bool := [0x8B#8, 0xAB#8, 0x93#8, 0x9F#8, 0x9E#8, 0x9C#8, 0x9B#8].contains op

/-- How many operand bytes follow the opcode (R110, R111). -/
def operandBytes (op : Byte) : Nat := (descriptor op).mode.length - 1

/-- How many bytes are fetched by the cycles of R140 and R141, opcode included, before the instruction's own sequence:
all of them, but for JSR, whose high byte that sequence reads after its pushes (43_control_flags.md R260). -/
def fetchLength (op : Byte) : Nat :=
  if (descriptor op).kind = .jsr then 2 else (descriptor op).mode.length

/-! ## Bytes to instruction -/

/-- The instructions of row 0x by low nibble, from their operand bytes. -/
def instrRow0 (lo : Nat) (b1 b2 : Byte) : Instr :=
  match lo with
  | 0 => .brk
  | 1 => .oraIzx b1
  | 2 => .jam02
  | 3 => .sloIzx b1
  | 4 => .nopZp04 b1
  | 5 => .oraZp b1
  | 6 => .aslZp b1
  | 7 => .sloZp b1
  | 8 => .php
  | 9 => .oraImm b1
  | 10 => .aslAcc
  | 11 => .ancImm0B b1
  | 12 => .nopAbs b1 b2
  | 13 => .oraAbs b1 b2
  | 14 => .aslAbs b1 b2
  | _ => .sloAbs b1 b2

/-- The instructions of row 1x by low nibble, from their operand bytes. -/
def instrRow1 (lo : Nat) (b1 b2 : Byte) : Instr :=
  match lo with
  | 0 => .bpl b1
  | 1 => .oraIzy b1
  | 2 => .jam12
  | 3 => .sloIzy b1
  | 4 => .nopZpx14 b1
  | 5 => .oraZpx b1
  | 6 => .aslZpx b1
  | 7 => .sloZpx b1
  | 8 => .clc
  | 9 => .oraAby b1 b2
  | 10 => .nopImp1A
  | 11 => .sloAby b1 b2
  | 12 => .nopAbx1C b1 b2
  | 13 => .oraAbx b1 b2
  | 14 => .aslAbx b1 b2
  | _ => .sloAbx b1 b2

/-- The instructions of row 2x by low nibble, from their operand bytes. -/
def instrRow2 (lo : Nat) (b1 b2 : Byte) : Instr :=
  match lo with
  | 0 => .jsr (b2 ++ b1)
  | 1 => .andIzx b1
  | 2 => .jam22
  | 3 => .rlaIzx b1
  | 4 => .bitZp b1
  | 5 => .andZp b1
  | 6 => .rolZp b1
  | 7 => .rlaZp b1
  | 8 => .plp
  | 9 => .andImm b1
  | 10 => .rolAcc
  | 11 => .ancImm2B b1
  | 12 => .bitAbs b1 b2
  | 13 => .andAbs b1 b2
  | 14 => .rolAbs b1 b2
  | _ => .rlaAbs b1 b2

/-- The instructions of row 3x by low nibble, from their operand bytes. -/
def instrRow3 (lo : Nat) (b1 b2 : Byte) : Instr :=
  match lo with
  | 0 => .bmi b1
  | 1 => .andIzy b1
  | 2 => .jam32
  | 3 => .rlaIzy b1
  | 4 => .nopZpx34 b1
  | 5 => .andZpx b1
  | 6 => .rolZpx b1
  | 7 => .rlaZpx b1
  | 8 => .sec
  | 9 => .andAby b1 b2
  | 10 => .nopImp3A
  | 11 => .rlaAby b1 b2
  | 12 => .nopAbx3C b1 b2
  | 13 => .andAbx b1 b2
  | 14 => .rolAbx b1 b2
  | _ => .rlaAbx b1 b2

/-- The instructions of row 4x by low nibble, from their operand bytes. -/
def instrRow4 (lo : Nat) (b1 b2 : Byte) : Instr :=
  match lo with
  | 0 => .rti
  | 1 => .eorIzx b1
  | 2 => .jam42
  | 3 => .sreIzx b1
  | 4 => .nopZp44 b1
  | 5 => .eorZp b1
  | 6 => .lsrZp b1
  | 7 => .sreZp b1
  | 8 => .pha
  | 9 => .eorImm b1
  | 10 => .lsrAcc
  | 11 => .alr b1
  | 12 => .jmpAbs b1 b2
  | 13 => .eorAbs b1 b2
  | 14 => .lsrAbs b1 b2
  | _ => .sreAbs b1 b2

/-- The instructions of row 5x by low nibble, from their operand bytes. -/
def instrRow5 (lo : Nat) (b1 b2 : Byte) : Instr :=
  match lo with
  | 0 => .bvc b1
  | 1 => .eorIzy b1
  | 2 => .jam52
  | 3 => .sreIzy b1
  | 4 => .nopZpx54 b1
  | 5 => .eorZpx b1
  | 6 => .lsrZpx b1
  | 7 => .sreZpx b1
  | 8 => .cli
  | 9 => .eorAby b1 b2
  | 10 => .nopImp5A
  | 11 => .sreAby b1 b2
  | 12 => .nopAbx5C b1 b2
  | 13 => .eorAbx b1 b2
  | 14 => .lsrAbx b1 b2
  | _ => .sreAbx b1 b2

/-- The instructions of row 6x by low nibble, from their operand bytes. -/
def instrRow6 (lo : Nat) (b1 b2 : Byte) : Instr :=
  match lo with
  | 0 => .rts
  | 1 => .adcIzx b1
  | 2 => .jam62
  | 3 => .rraIzx b1
  | 4 => .nopZp64 b1
  | 5 => .adcZp b1
  | 6 => .rorZp b1
  | 7 => .rraZp b1
  | 8 => .pla
  | 9 => .adcImm b1
  | 10 => .rorAcc
  | 11 => .arr b1
  | 12 => .jmpInd b1 b2
  | 13 => .adcAbs b1 b2
  | 14 => .rorAbs b1 b2
  | _ => .rraAbs b1 b2

/-- The instructions of row 7x by low nibble, from their operand bytes. -/
def instrRow7 (lo : Nat) (b1 b2 : Byte) : Instr :=
  match lo with
  | 0 => .bvs b1
  | 1 => .adcIzy b1
  | 2 => .jam72
  | 3 => .rraIzy b1
  | 4 => .nopZpx74 b1
  | 5 => .adcZpx b1
  | 6 => .rorZpx b1
  | 7 => .rraZpx b1
  | 8 => .sei
  | 9 => .adcAby b1 b2
  | 10 => .nopImp7A
  | 11 => .rraAby b1 b2
  | 12 => .nopAbx7C b1 b2
  | 13 => .adcAbx b1 b2
  | 14 => .rorAbx b1 b2
  | _ => .rraAbx b1 b2

/-- The instructions of row 8x by low nibble, from their operand bytes. -/
def instrRow8 (lo : Nat) (b1 b2 : Byte) : Instr :=
  match lo with
  | 0 => .nopImm80 b1
  | 1 => .staIzx b1
  | 2 => .nopImm82 b1
  | 3 => .saxIzx b1
  | 4 => .styZp b1
  | 5 => .staZp b1
  | 6 => .stxZp b1
  | 7 => .saxZp b1
  | 8 => .dey
  | 9 => .nopImm89 b1
  | 10 => .txa
  | 11 => .ane b1
  | 12 => .styAbs b1 b2
  | 13 => .staAbs b1 b2
  | 14 => .stxAbs b1 b2
  | _ => .saxAbs b1 b2

/-- The instructions of row 9x by low nibble, from their operand bytes. -/
def instrRow9 (lo : Nat) (b1 b2 : Byte) : Instr :=
  match lo with
  | 0 => .bcc b1
  | 1 => .staIzy b1
  | 2 => .jam92
  | 3 => .shaIzy b1
  | 4 => .styZpx b1
  | 5 => .staZpx b1
  | 6 => .stxZpy b1
  | 7 => .saxZpy b1
  | 8 => .tya
  | 9 => .staAby b1 b2
  | 10 => .txs
  | 11 => .tas b1 b2
  | 12 => .shy b1 b2
  | 13 => .staAbx b1 b2
  | 14 => .shx b1 b2
  | _ => .shaAby b1 b2

/-- The instructions of row Ax by low nibble, from their operand bytes. -/
def instrRowA (lo : Nat) (b1 b2 : Byte) : Instr :=
  match lo with
  | 0 => .ldyImm b1
  | 1 => .ldaIzx b1
  | 2 => .ldxImm b1
  | 3 => .laxIzx b1
  | 4 => .ldyZp b1
  | 5 => .ldaZp b1
  | 6 => .ldxZp b1
  | 7 => .laxZp b1
  | 8 => .tay
  | 9 => .ldaImm b1
  | 10 => .tax
  | 11 => .lxa b1
  | 12 => .ldyAbs b1 b2
  | 13 => .ldaAbs b1 b2
  | 14 => .ldxAbs b1 b2
  | _ => .laxAbs b1 b2

/-- The instructions of row Bx by low nibble, from their operand bytes. -/
def instrRowB (lo : Nat) (b1 b2 : Byte) : Instr :=
  match lo with
  | 0 => .bcs b1
  | 1 => .ldaIzy b1
  | 2 => .jamB2
  | 3 => .laxIzy b1
  | 4 => .ldyZpx b1
  | 5 => .ldaZpx b1
  | 6 => .ldxZpy b1
  | 7 => .laxZpy b1
  | 8 => .clv
  | 9 => .ldaAby b1 b2
  | 10 => .tsx
  | 11 => .las b1 b2
  | 12 => .ldyAbx b1 b2
  | 13 => .ldaAbx b1 b2
  | 14 => .ldxAby b1 b2
  | _ => .laxAby b1 b2

/-- The instructions of row Cx by low nibble, from their operand bytes. -/
def instrRowC (lo : Nat) (b1 b2 : Byte) : Instr :=
  match lo with
  | 0 => .cpyImm b1
  | 1 => .cmpIzx b1
  | 2 => .nopImmC2 b1
  | 3 => .dcpIzx b1
  | 4 => .cpyZp b1
  | 5 => .cmpZp b1
  | 6 => .decZp b1
  | 7 => .dcpZp b1
  | 8 => .iny
  | 9 => .cmpImm b1
  | 10 => .dex
  | 11 => .axs b1
  | 12 => .cpyAbs b1 b2
  | 13 => .cmpAbs b1 b2
  | 14 => .decAbs b1 b2
  | _ => .dcpAbs b1 b2

/-- The instructions of row Dx by low nibble, from their operand bytes. -/
def instrRowD (lo : Nat) (b1 b2 : Byte) : Instr :=
  match lo with
  | 0 => .bne b1
  | 1 => .cmpIzy b1
  | 2 => .jamD2
  | 3 => .dcpIzy b1
  | 4 => .nopZpxD4 b1
  | 5 => .cmpZpx b1
  | 6 => .decZpx b1
  | 7 => .dcpZpx b1
  | 8 => .cld
  | 9 => .cmpAby b1 b2
  | 10 => .nopImpDA
  | 11 => .dcpAby b1 b2
  | 12 => .nopAbxDC b1 b2
  | 13 => .cmpAbx b1 b2
  | 14 => .decAbx b1 b2
  | _ => .dcpAbx b1 b2

/-- The instructions of row Ex by low nibble, from their operand bytes. -/
def instrRowE (lo : Nat) (b1 b2 : Byte) : Instr :=
  match lo with
  | 0 => .cpxImm b1
  | 1 => .sbcIzx b1
  | 2 => .nopImmE2 b1
  | 3 => .isbIzx b1
  | 4 => .cpxZp b1
  | 5 => .sbcZp b1
  | 6 => .incZp b1
  | 7 => .isbZp b1
  | 8 => .inx
  | 9 => .sbcImm b1
  | 10 => .nop
  | 11 => .sbcImmEB b1
  | 12 => .cpxAbs b1 b2
  | 13 => .sbcAbs b1 b2
  | 14 => .incAbs b1 b2
  | _ => .isbAbs b1 b2

/-- The instructions of row Fx by low nibble, from their operand bytes. -/
def instrRowF (lo : Nat) (b1 b2 : Byte) : Instr :=
  match lo with
  | 0 => .beq b1
  | 1 => .sbcIzy b1
  | 2 => .jamF2
  | 3 => .isbIzy b1
  | 4 => .nopZpxF4 b1
  | 5 => .sbcZpx b1
  | 6 => .incZpx b1
  | 7 => .isbZpx b1
  | 8 => .sed
  | 9 => .sbcAby b1 b2
  | 10 => .nopImpFA
  | 11 => .isbAby b1 b2
  | 12 => .nopAbxFC b1 b2
  | 13 => .sbcAbx b1 b2
  | 14 => .incAbx b1 b2
  | _ => .isbAbx b1 b2

/-- The instruction of opcode `op` with the operand bytes `b1` and `b2`, of which it takes as many as it carries
(R110, R112). Total: every byte value decodes (R118). -/
def instrOf (op b1 b2 : Byte) : Instr :=
  let lo := op.toNat % 16
  match op.toNat / 16 with
  | 0 => instrRow0 lo b1 b2
  | 1 => instrRow1 lo b1 b2
  | 2 => instrRow2 lo b1 b2
  | 3 => instrRow3 lo b1 b2
  | 4 => instrRow4 lo b1 b2
  | 5 => instrRow5 lo b1 b2
  | 6 => instrRow6 lo b1 b2
  | 7 => instrRow7 lo b1 b2
  | 8 => instrRow8 lo b1 b2
  | 9 => instrRow9 lo b1 b2
  | 10 => instrRowA lo b1 b2
  | 11 => instrRowB lo b1 b2
  | 12 => instrRowC lo b1 b2
  | 13 => instrRowD lo b1 b2
  | 14 => instrRowE lo b1 b2
  | _ => instrRowF lo b1 b2

/-- Why a byte string holds no instruction. -/
inductive DecodeError where
  /-- There is no opcode byte. -/
  | noOpcode
  /-- The opcode `op` stands, but not all of its operand bytes. -/
  | truncated (op : Byte)
  deriving DecidableEq, Repr

/-- Decode the instruction at the head of a byte string, and what follows it (R110, R111). -/
def decode : List Byte → Except DecodeError (Instr × List Byte)
  | [] => .error .noOpcode
  | op :: rest =>
    match operandBytes op, rest with
    | 0, rest => .ok (instrOf op 0 0, rest)
    | 1, b1 :: rest => .ok (instrOf op b1 0, rest)
    | 2, b1 :: b2 :: rest => .ok (instrOf op b1 b2, rest)
    | _, _ => .error (.truncated op)

/-- The bytes of a word numbered as the opcode table numbers bits, first byte lowest: `n` bytes. -/
def tableBytes : Nat → Nat → List Byte
  | 0, _ => []
  | n + 1, w => BitVec.ofNat 8 w :: tableBytes n (w / 256)

/-- The instruction the decoder reads from the bits `w`, numbered as spec/opcode_table.json numbers them; every bit
from `nbits` up is 0. -/
def decodeTableWord (nbits w : Nat) : Option Instr :=
  match decode (tableBytes 3 (w % 2 ^ nbits)) with
  | .ok r => some r.1
  | .error _ => none

/-! ## Instruction to bytes -/

/-- The opcode byte of an instruction (R115). -/
def Instr.opcode : Instr → Byte
  | .brk => 0x00
  | .oraIzx _ => 0x01
  | .jam02 => 0x02
  | .sloIzx _ => 0x03
  | .nopZp04 _ => 0x04
  | .oraZp _ => 0x05
  | .aslZp _ => 0x06
  | .sloZp _ => 0x07
  | .php => 0x08
  | .oraImm _ => 0x09
  | .aslAcc => 0x0A
  | .ancImm0B _ => 0x0B
  | .nopAbs _ _ => 0x0C
  | .oraAbs _ _ => 0x0D
  | .aslAbs _ _ => 0x0E
  | .sloAbs _ _ => 0x0F
  | .bpl _ => 0x10
  | .oraIzy _ => 0x11
  | .jam12 => 0x12
  | .sloIzy _ => 0x13
  | .nopZpx14 _ => 0x14
  | .oraZpx _ => 0x15
  | .aslZpx _ => 0x16
  | .sloZpx _ => 0x17
  | .clc => 0x18
  | .oraAby _ _ => 0x19
  | .nopImp1A => 0x1A
  | .sloAby _ _ => 0x1B
  | .nopAbx1C _ _ => 0x1C
  | .oraAbx _ _ => 0x1D
  | .aslAbx _ _ => 0x1E
  | .sloAbx _ _ => 0x1F
  | .jsr _ => 0x20
  | .andIzx _ => 0x21
  | .jam22 => 0x22
  | .rlaIzx _ => 0x23
  | .bitZp _ => 0x24
  | .andZp _ => 0x25
  | .rolZp _ => 0x26
  | .rlaZp _ => 0x27
  | .plp => 0x28
  | .andImm _ => 0x29
  | .rolAcc => 0x2A
  | .ancImm2B _ => 0x2B
  | .bitAbs _ _ => 0x2C
  | .andAbs _ _ => 0x2D
  | .rolAbs _ _ => 0x2E
  | .rlaAbs _ _ => 0x2F
  | .bmi _ => 0x30
  | .andIzy _ => 0x31
  | .jam32 => 0x32
  | .rlaIzy _ => 0x33
  | .nopZpx34 _ => 0x34
  | .andZpx _ => 0x35
  | .rolZpx _ => 0x36
  | .rlaZpx _ => 0x37
  | .sec => 0x38
  | .andAby _ _ => 0x39
  | .nopImp3A => 0x3A
  | .rlaAby _ _ => 0x3B
  | .nopAbx3C _ _ => 0x3C
  | .andAbx _ _ => 0x3D
  | .rolAbx _ _ => 0x3E
  | .rlaAbx _ _ => 0x3F
  | .rti => 0x40
  | .eorIzx _ => 0x41
  | .jam42 => 0x42
  | .sreIzx _ => 0x43
  | .nopZp44 _ => 0x44
  | .eorZp _ => 0x45
  | .lsrZp _ => 0x46
  | .sreZp _ => 0x47
  | .pha => 0x48
  | .eorImm _ => 0x49
  | .lsrAcc => 0x4A
  | .alr _ => 0x4B
  | .jmpAbs _ _ => 0x4C
  | .eorAbs _ _ => 0x4D
  | .lsrAbs _ _ => 0x4E
  | .sreAbs _ _ => 0x4F
  | .bvc _ => 0x50
  | .eorIzy _ => 0x51
  | .jam52 => 0x52
  | .sreIzy _ => 0x53
  | .nopZpx54 _ => 0x54
  | .eorZpx _ => 0x55
  | .lsrZpx _ => 0x56
  | .sreZpx _ => 0x57
  | .cli => 0x58
  | .eorAby _ _ => 0x59
  | .nopImp5A => 0x5A
  | .sreAby _ _ => 0x5B
  | .nopAbx5C _ _ => 0x5C
  | .eorAbx _ _ => 0x5D
  | .lsrAbx _ _ => 0x5E
  | .sreAbx _ _ => 0x5F
  | .rts => 0x60
  | .adcIzx _ => 0x61
  | .jam62 => 0x62
  | .rraIzx _ => 0x63
  | .nopZp64 _ => 0x64
  | .adcZp _ => 0x65
  | .rorZp _ => 0x66
  | .rraZp _ => 0x67
  | .pla => 0x68
  | .adcImm _ => 0x69
  | .rorAcc => 0x6A
  | .arr _ => 0x6B
  | .jmpInd _ _ => 0x6C
  | .adcAbs _ _ => 0x6D
  | .rorAbs _ _ => 0x6E
  | .rraAbs _ _ => 0x6F
  | .bvs _ => 0x70
  | .adcIzy _ => 0x71
  | .jam72 => 0x72
  | .rraIzy _ => 0x73
  | .nopZpx74 _ => 0x74
  | .adcZpx _ => 0x75
  | .rorZpx _ => 0x76
  | .rraZpx _ => 0x77
  | .sei => 0x78
  | .adcAby _ _ => 0x79
  | .nopImp7A => 0x7A
  | .rraAby _ _ => 0x7B
  | .nopAbx7C _ _ => 0x7C
  | .adcAbx _ _ => 0x7D
  | .rorAbx _ _ => 0x7E
  | .rraAbx _ _ => 0x7F
  | .nopImm80 _ => 0x80
  | .staIzx _ => 0x81
  | .nopImm82 _ => 0x82
  | .saxIzx _ => 0x83
  | .styZp _ => 0x84
  | .staZp _ => 0x85
  | .stxZp _ => 0x86
  | .saxZp _ => 0x87
  | .dey => 0x88
  | .nopImm89 _ => 0x89
  | .txa => 0x8A
  | .ane _ => 0x8B
  | .styAbs _ _ => 0x8C
  | .staAbs _ _ => 0x8D
  | .stxAbs _ _ => 0x8E
  | .saxAbs _ _ => 0x8F
  | .bcc _ => 0x90
  | .staIzy _ => 0x91
  | .jam92 => 0x92
  | .shaIzy _ => 0x93
  | .styZpx _ => 0x94
  | .staZpx _ => 0x95
  | .stxZpy _ => 0x96
  | .saxZpy _ => 0x97
  | .tya => 0x98
  | .staAby _ _ => 0x99
  | .txs => 0x9A
  | .tas _ _ => 0x9B
  | .shy _ _ => 0x9C
  | .staAbx _ _ => 0x9D
  | .shx _ _ => 0x9E
  | .shaAby _ _ => 0x9F
  | .ldyImm _ => 0xA0
  | .ldaIzx _ => 0xA1
  | .ldxImm _ => 0xA2
  | .laxIzx _ => 0xA3
  | .ldyZp _ => 0xA4
  | .ldaZp _ => 0xA5
  | .ldxZp _ => 0xA6
  | .laxZp _ => 0xA7
  | .tay => 0xA8
  | .ldaImm _ => 0xA9
  | .tax => 0xAA
  | .lxa _ => 0xAB
  | .ldyAbs _ _ => 0xAC
  | .ldaAbs _ _ => 0xAD
  | .ldxAbs _ _ => 0xAE
  | .laxAbs _ _ => 0xAF
  | .bcs _ => 0xB0
  | .ldaIzy _ => 0xB1
  | .jamB2 => 0xB2
  | .laxIzy _ => 0xB3
  | .ldyZpx _ => 0xB4
  | .ldaZpx _ => 0xB5
  | .ldxZpy _ => 0xB6
  | .laxZpy _ => 0xB7
  | .clv => 0xB8
  | .ldaAby _ _ => 0xB9
  | .tsx => 0xBA
  | .las _ _ => 0xBB
  | .ldyAbx _ _ => 0xBC
  | .ldaAbx _ _ => 0xBD
  | .ldxAby _ _ => 0xBE
  | .laxAby _ _ => 0xBF
  | .cpyImm _ => 0xC0
  | .cmpIzx _ => 0xC1
  | .nopImmC2 _ => 0xC2
  | .dcpIzx _ => 0xC3
  | .cpyZp _ => 0xC4
  | .cmpZp _ => 0xC5
  | .decZp _ => 0xC6
  | .dcpZp _ => 0xC7
  | .iny => 0xC8
  | .cmpImm _ => 0xC9
  | .dex => 0xCA
  | .axs _ => 0xCB
  | .cpyAbs _ _ => 0xCC
  | .cmpAbs _ _ => 0xCD
  | .decAbs _ _ => 0xCE
  | .dcpAbs _ _ => 0xCF
  | .bne _ => 0xD0
  | .cmpIzy _ => 0xD1
  | .jamD2 => 0xD2
  | .dcpIzy _ => 0xD3
  | .nopZpxD4 _ => 0xD4
  | .cmpZpx _ => 0xD5
  | .decZpx _ => 0xD6
  | .dcpZpx _ => 0xD7
  | .cld => 0xD8
  | .cmpAby _ _ => 0xD9
  | .nopImpDA => 0xDA
  | .dcpAby _ _ => 0xDB
  | .nopAbxDC _ _ => 0xDC
  | .cmpAbx _ _ => 0xDD
  | .decAbx _ _ => 0xDE
  | .dcpAbx _ _ => 0xDF
  | .cpxImm _ => 0xE0
  | .sbcIzx _ => 0xE1
  | .nopImmE2 _ => 0xE2
  | .isbIzx _ => 0xE3
  | .cpxZp _ => 0xE4
  | .sbcZp _ => 0xE5
  | .incZp _ => 0xE6
  | .isbZp _ => 0xE7
  | .inx => 0xE8
  | .sbcImm _ => 0xE9
  | .nop => 0xEA
  | .sbcImmEB _ => 0xEB
  | .cpxAbs _ _ => 0xEC
  | .sbcAbs _ _ => 0xED
  | .incAbs _ _ => 0xEE
  | .isbAbs _ _ => 0xEF
  | .beq _ => 0xF0
  | .sbcIzy _ => 0xF1
  | .jamF2 => 0xF2
  | .isbIzy _ => 0xF3
  | .nopZpxF4 _ => 0xF4
  | .sbcZpx _ => 0xF5
  | .incZpx _ => 0xF6
  | .isbZpx _ => 0xF7
  | .sed => 0xF8
  | .sbcAby _ _ => 0xF9
  | .nopImpFA => 0xFA
  | .isbAby _ _ => 0xFB
  | .nopAbxFC _ _ => 0xFC
  | .sbcAbx _ _ => 0xFD
  | .incAbx _ _ => 0xFE
  | .isbAbx _ _ => 0xFF

/-- The operand bytes an instruction carries, in fetch order (R111). -/
def Instr.operands : Instr → List Byte
  | .brk => []
  | .oraIzx b => [b]
  | .jam02 => []
  | .sloIzx b => [b]
  | .nopZp04 b => [b]
  | .oraZp b => [b]
  | .aslZp b => [b]
  | .sloZp b => [b]
  | .php => []
  | .oraImm b => [b]
  | .aslAcc => []
  | .ancImm0B b => [b]
  | .nopAbs lo hi => [lo, hi]
  | .oraAbs lo hi => [lo, hi]
  | .aslAbs lo hi => [lo, hi]
  | .sloAbs lo hi => [lo, hi]
  | .bpl b => [b]
  | .oraIzy b => [b]
  | .jam12 => []
  | .sloIzy b => [b]
  | .nopZpx14 b => [b]
  | .oraZpx b => [b]
  | .aslZpx b => [b]
  | .sloZpx b => [b]
  | .clc => []
  | .oraAby lo hi => [lo, hi]
  | .nopImp1A => []
  | .sloAby lo hi => [lo, hi]
  | .nopAbx1C lo hi => [lo, hi]
  | .oraAbx lo hi => [lo, hi]
  | .aslAbx lo hi => [lo, hi]
  | .sloAbx lo hi => [lo, hi]
  | .jsr target => [target.extractLsb' 0 8, target.extractLsb' 8 8]
  | .andIzx b => [b]
  | .jam22 => []
  | .rlaIzx b => [b]
  | .bitZp b => [b]
  | .andZp b => [b]
  | .rolZp b => [b]
  | .rlaZp b => [b]
  | .plp => []
  | .andImm b => [b]
  | .rolAcc => []
  | .ancImm2B b => [b]
  | .bitAbs lo hi => [lo, hi]
  | .andAbs lo hi => [lo, hi]
  | .rolAbs lo hi => [lo, hi]
  | .rlaAbs lo hi => [lo, hi]
  | .bmi b => [b]
  | .andIzy b => [b]
  | .jam32 => []
  | .rlaIzy b => [b]
  | .nopZpx34 b => [b]
  | .andZpx b => [b]
  | .rolZpx b => [b]
  | .rlaZpx b => [b]
  | .sec => []
  | .andAby lo hi => [lo, hi]
  | .nopImp3A => []
  | .rlaAby lo hi => [lo, hi]
  | .nopAbx3C lo hi => [lo, hi]
  | .andAbx lo hi => [lo, hi]
  | .rolAbx lo hi => [lo, hi]
  | .rlaAbx lo hi => [lo, hi]
  | .rti => []
  | .eorIzx b => [b]
  | .jam42 => []
  | .sreIzx b => [b]
  | .nopZp44 b => [b]
  | .eorZp b => [b]
  | .lsrZp b => [b]
  | .sreZp b => [b]
  | .pha => []
  | .eorImm b => [b]
  | .lsrAcc => []
  | .alr b => [b]
  | .jmpAbs lo hi => [lo, hi]
  | .eorAbs lo hi => [lo, hi]
  | .lsrAbs lo hi => [lo, hi]
  | .sreAbs lo hi => [lo, hi]
  | .bvc b => [b]
  | .eorIzy b => [b]
  | .jam52 => []
  | .sreIzy b => [b]
  | .nopZpx54 b => [b]
  | .eorZpx b => [b]
  | .lsrZpx b => [b]
  | .sreZpx b => [b]
  | .cli => []
  | .eorAby lo hi => [lo, hi]
  | .nopImp5A => []
  | .sreAby lo hi => [lo, hi]
  | .nopAbx5C lo hi => [lo, hi]
  | .eorAbx lo hi => [lo, hi]
  | .lsrAbx lo hi => [lo, hi]
  | .sreAbx lo hi => [lo, hi]
  | .rts => []
  | .adcIzx b => [b]
  | .jam62 => []
  | .rraIzx b => [b]
  | .nopZp64 b => [b]
  | .adcZp b => [b]
  | .rorZp b => [b]
  | .rraZp b => [b]
  | .pla => []
  | .adcImm b => [b]
  | .rorAcc => []
  | .arr b => [b]
  | .jmpInd lo hi => [lo, hi]
  | .adcAbs lo hi => [lo, hi]
  | .rorAbs lo hi => [lo, hi]
  | .rraAbs lo hi => [lo, hi]
  | .bvs b => [b]
  | .adcIzy b => [b]
  | .jam72 => []
  | .rraIzy b => [b]
  | .nopZpx74 b => [b]
  | .adcZpx b => [b]
  | .rorZpx b => [b]
  | .rraZpx b => [b]
  | .sei => []
  | .adcAby lo hi => [lo, hi]
  | .nopImp7A => []
  | .rraAby lo hi => [lo, hi]
  | .nopAbx7C lo hi => [lo, hi]
  | .adcAbx lo hi => [lo, hi]
  | .rorAbx lo hi => [lo, hi]
  | .rraAbx lo hi => [lo, hi]
  | .nopImm80 b => [b]
  | .staIzx b => [b]
  | .nopImm82 b => [b]
  | .saxIzx b => [b]
  | .styZp b => [b]
  | .staZp b => [b]
  | .stxZp b => [b]
  | .saxZp b => [b]
  | .dey => []
  | .nopImm89 b => [b]
  | .txa => []
  | .ane b => [b]
  | .styAbs lo hi => [lo, hi]
  | .staAbs lo hi => [lo, hi]
  | .stxAbs lo hi => [lo, hi]
  | .saxAbs lo hi => [lo, hi]
  | .bcc b => [b]
  | .staIzy b => [b]
  | .jam92 => []
  | .shaIzy b => [b]
  | .styZpx b => [b]
  | .staZpx b => [b]
  | .stxZpy b => [b]
  | .saxZpy b => [b]
  | .tya => []
  | .staAby lo hi => [lo, hi]
  | .txs => []
  | .tas lo hi => [lo, hi]
  | .shy lo hi => [lo, hi]
  | .staAbx lo hi => [lo, hi]
  | .shx lo hi => [lo, hi]
  | .shaAby lo hi => [lo, hi]
  | .ldyImm b => [b]
  | .ldaIzx b => [b]
  | .ldxImm b => [b]
  | .laxIzx b => [b]
  | .ldyZp b => [b]
  | .ldaZp b => [b]
  | .ldxZp b => [b]
  | .laxZp b => [b]
  | .tay => []
  | .ldaImm b => [b]
  | .tax => []
  | .lxa b => [b]
  | .ldyAbs lo hi => [lo, hi]
  | .ldaAbs lo hi => [lo, hi]
  | .ldxAbs lo hi => [lo, hi]
  | .laxAbs lo hi => [lo, hi]
  | .bcs b => [b]
  | .ldaIzy b => [b]
  | .jamB2 => []
  | .laxIzy b => [b]
  | .ldyZpx b => [b]
  | .ldaZpx b => [b]
  | .ldxZpy b => [b]
  | .laxZpy b => [b]
  | .clv => []
  | .ldaAby lo hi => [lo, hi]
  | .tsx => []
  | .las lo hi => [lo, hi]
  | .ldyAbx lo hi => [lo, hi]
  | .ldaAbx lo hi => [lo, hi]
  | .ldxAby lo hi => [lo, hi]
  | .laxAby lo hi => [lo, hi]
  | .cpyImm b => [b]
  | .cmpIzx b => [b]
  | .nopImmC2 b => [b]
  | .dcpIzx b => [b]
  | .cpyZp b => [b]
  | .cmpZp b => [b]
  | .decZp b => [b]
  | .dcpZp b => [b]
  | .iny => []
  | .cmpImm b => [b]
  | .dex => []
  | .axs b => [b]
  | .cpyAbs lo hi => [lo, hi]
  | .cmpAbs lo hi => [lo, hi]
  | .decAbs lo hi => [lo, hi]
  | .dcpAbs lo hi => [lo, hi]
  | .bne b => [b]
  | .cmpIzy b => [b]
  | .jamD2 => []
  | .dcpIzy b => [b]
  | .nopZpxD4 b => [b]
  | .cmpZpx b => [b]
  | .decZpx b => [b]
  | .dcpZpx b => [b]
  | .cld => []
  | .cmpAby lo hi => [lo, hi]
  | .nopImpDA => []
  | .dcpAby lo hi => [lo, hi]
  | .nopAbxDC lo hi => [lo, hi]
  | .cmpAbx lo hi => [lo, hi]
  | .decAbx lo hi => [lo, hi]
  | .dcpAbx lo hi => [lo, hi]
  | .cpxImm b => [b]
  | .sbcIzx b => [b]
  | .nopImmE2 b => [b]
  | .isbIzx b => [b]
  | .cpxZp b => [b]
  | .sbcZp b => [b]
  | .incZp b => [b]
  | .isbZp b => [b]
  | .inx => []
  | .sbcImm b => [b]
  | .nop => []
  | .sbcImmEB b => [b]
  | .cpxAbs lo hi => [lo, hi]
  | .sbcAbs lo hi => [lo, hi]
  | .incAbs lo hi => [lo, hi]
  | .isbAbs lo hi => [lo, hi]
  | .beq b => [b]
  | .sbcIzy b => [b]
  | .jamF2 => []
  | .isbIzy b => [b]
  | .nopZpxF4 b => [b]
  | .sbcZpx b => [b]
  | .incZpx b => [b]
  | .isbZpx b => [b]
  | .sed => []
  | .sbcAby lo hi => [lo, hi]
  | .nopImpFA => []
  | .isbAby lo hi => [lo, hi]
  | .nopAbxFC lo hi => [lo, hi]
  | .sbcAbx lo hi => [lo, hi]
  | .incAbx lo hi => [lo, hi]
  | .isbAbx lo hi => [lo, hi]

/-- The bytes of an instruction: its opcode and the operand bytes it carries (R110). -/
def encode (i : Instr) : List Byte := i.opcode :: i.operands

end Sys2Proof
end

