-- ==== Sys2Proof/Config.lean ====
section
/-! DEFINITION. What the spec leaves to the machine at hand: the open parameters of 00_scope.md R7 that are
plain data (`Params`), and the free values that no definition fixes (opaque constants without a body). -/

namespace Sys2Proof

/-- The open parameters of 00_scope.md R7 that stay fixed while the machine runs. They are plain data held in
`State.params`; no step writes them, and a statement about every state holds for each of their values. -/
structure Params where
  /-- `PPU_READ_SPLIT`: PPU dots ticked before the access of a read bus cycle (20_memory.md R75). -/
  readSplit : Fin 4
  /-- `PPU_WRITE_SPLIT`: PPU dots ticked before the access of a write bus cycle (20_memory.md R75). -/
  writeSplit : Fin 4
  /-- `UNSTABLE_FATAL`: whether the seven unstable opcodes are fatal (44_unofficial.md R290). -/
  unstableFatal : Bool
  /-- `ANE_MAGIC`: the chip constant of ANE (44_unofficial.md R314). -/
  aneMagic : Byte
  /-- `LXA_MAGIC`: the chip constant of LXA (44_unofficial.md R315). -/
  lxaMagic : Byte
  /-- `DMC_REREAD`: whether the dummy cycles of a DMC stall repeat the halted read (61_dma.md R387). -/
  dmcReread : Bool
  deriving DecidableEq, Repr

/-- The defaults of 00_scope.md R7 (`UNSTABLE_FATAL` and `DMC_REREAD` true).
DESIGN CHOICE (unsafe, log entry 4): 0 for the parameters that have no default there. -/
def Params.default : Params :=
  { readSplit := 0, writeSplit := 0, unstableFatal := true, aneMagic := 0#8, lxaMagic := 0#8, dmcReread := true }

/-- The two controller ports of 20_memory.md R84. -/
inductive Port where
  | one
  | two
  deriving DecidableEq, Repr

/-- `Draw8()` of 00_scope.md R11: the value of the open-bus bits of draw number `n`. No body: nothing is known of it.
DESIGN CHOICE (safe, log entry 5). -/
opaque Config.draw : (n : Nat) → Byte

/-- `Buttons(p)` of 20_memory.md R84: the host's button byte of port `p`, sampled as draw number `n`. No body.
DESIGN CHOICE (safe, log entry 6). -/
opaque Config.buttons : (p : Port) → (n : Nat) → Byte

/-- What `bytesLeft - 1` is when a DMC byte is delivered while `bytesLeft = 0` (63_apu.md R522 states no result
there), as draw number `n`. No body. DESIGN CHOICE (safe, log entry 7). -/
opaque Config.dmcUnderflow : (n : Nat) → BitVec 12

/-- The row of a sprite whose computed row is no natural number (62_ppu.md R463 states no result there), at draw
counter `n`, bus cycle `cycle` and dot `dot`. No body. DESIGN CHOICE (safe, log entry 8). -/
opaque Config.spriteRow : (n cycle dot : Nat) → Byte

end Sys2Proof
end

