-- ==== Sys2Proof/Machine/State.lean ====
section
/-! DEFINITION. The state of the machine as plain data, its stop reasons, and the state after reset.
10_state.md (CPU), 62_ppu.md R420 to R424 (picture unit), 63_apu.md R500 to R507 (audio unit),
64_cartridge_mappers.md R570 to R575 and each variant's state rule (cartridge). -/

namespace Sys2Proof.Machine

/-- A memory: its listed bytes by strictly rising address; see `Memory.wf` and `Memory.unlisted`. -/
abbrev Memory := List Host.Cell

/-- What an address no cell lists reads as, in every memory of the machine.
DESIGN CHOICE (unsafe, log entry 2): the power-on contents are open parameters (70_reset_and_hazards.md R631, R633,
64_cartridge_mappers.md R573); `State.reset` takes this byte for all of them. -/
def Memory.unlisted : Byte := 0#8

/-- The six stored flags of `P` (10_state.md R35). Bits 5 and 4 are not storage. -/
structure Flags where
  /-- carry (R36) -/
  c : Bool
  /-- zero (R37) -/
  z : Bool
  /-- interrupt disable (R38) -/
  i : Bool
  /-- decimal (R39) -/
  d : Bool
  /-- overflow (R40) -/
  v : Bool
  /-- negative (R41) -/
  n : Bool
  deriving DecidableEq, Repr

/-- `runState` (10_state.md R46). `fatal` records the opcode and the address it was fetched from
(60_exceptions.md R352). -/
inductive RunState where
  | running
  | fatal (op : Byte) (addr : Word)
  deriving DecidableEq, Repr

/-- One controller port: its shift register and the count of bits already shifted out (10_state.md R48). -/
structure Pad where
  shift : Byte
  count : Nat
  deriving DecidableEq, Repr

/-! ## Picture unit -/

/-- Background pipeline: the fetch latches and the four shift registers (62_ppu.md R421). -/
structure BgPipe where
  ntByte : Byte
  atBits : BitVec 2
  ptLo : Byte
  ptHi : Byte
  bgLo : BitVec 16
  bgHi : BitVec 16
  atLo : BitVec 16
  atHi : BitVec 16
  deriving DecidableEq, Repr

/-- One sprite output slot `sLo`, `sHi`, `sAttr`, `sX` (62_ppu.md R422). -/
structure SpriteSlot where
  lo : Byte
  hi : Byte
  attr : Byte
  x : Byte
  deriving DecidableEq, Repr

/-- Sprite evaluation: `evN`, `evM`, `evFound`, `evCopy`, `evDone`, `evZero` (62_ppu.md R422, R462). -/
structure SpriteEval where
  n : Nat
  m : BitVec 2
  found : Nat
  copy : Nat
  done : Bool
  zero : Bool
  deriving DecidableEq, Repr

/-- The values the sprite fetch of 62_ppu.md R463 names at phase 0 of a slot and uses at phases 5 and 7.
DESIGN CHOICE (unsafe, log entry 9): R420 does not list them, but they outlive the dot that computes them. -/
structure SpriteFetch where
  tile : Byte
  attr : Byte
  xpos : Byte
  row : Byte
  empty : Bool
  lo : Byte
  deriving DecidableEq, Repr

/-- The picture unit (62_ppu.md R420). -/
structure Ppu where
  /-- the dot the next tick processes, 0 to 340 -/
  dot : Nat
  /-- the scanline of `dot`, 0 to 261 -/
  scanline : Nat
  oddFrame : Bool
  /-- PPUCTRL (R429) -/
  ctrl : Byte
  /-- PPUMASK (R431) -/
  mask : Byte
  vblank : Bool
  spr0Hit : Bool
  sprOverflow : Bool
  /-- current VRAM address -/
  v : BitVec 15
  /-- temporary VRAM address -/
  t : BitVec 15
  /-- fine X scroll, the spec's `x` -/
  fineX : BitVec 3
  /-- write toggle of $2005 and $2006 -/
  w : Bool
  /-- the $2007 read buffer -/
  readBuffer : Byte
  oamAddr : Byte
  /-- set by the status-read race (R430) -/
  suppressVblank : Bool
  /-- primary OAM, 256 bytes (R423) -/
  oam : Memory
  /-- secondary OAM (R423) -/
  secOam : Vector Byte 32
  /-- palette RAM (20_memory.md R95) -/
  palette : Vector (BitVec 6) 32
  /-- nametable RAM (64_cartridge_mappers.md R576) -/
  ntRam : Memory
  bg : BgPipe
  slots : Vector SpriteSlot 8
  /-- slots in use on the current line -/
  sprCount : Nat
  /-- slot 0 holds OAM sprite 0 -/
  slot0IsZero : Bool
  eval : SpriteEval
  fetch : SpriteFetch
  /-- the frame buffer: the colour index of column `x` of line `y` at address `256 * y + x` (R424) -/
  frame : Memory
  deriving DecidableEq, Repr

/-! ## Audio unit -/

/-- Envelope; its `loop` is the channel's halt flag (63_apu.md R510). -/
structure Envelope where
  start : Bool
  divider : BitVec 4
  decay : BitVec 4
  volume : BitVec 4
  constant : Bool
  deriving DecidableEq, Repr

/-- Pulse channel (63_apu.md R500). -/
structure Pulse where
  enabled : Bool
  duty : BitVec 2
  halt : Bool
  env : Envelope
  swEnable : Bool
  swPeriod : BitVec 3
  swNegate : Bool
  swShift : BitVec 3
  swReload : Bool
  swDivider : BitVec 3
  period : BitVec 11
  timer : BitVec 11
  seq : BitVec 3
  length : Byte
  deriving DecidableEq, Repr

/-- Triangle channel (63_apu.md R501). -/
structure Triangle where
  enabled : Bool
  control : Bool
  linReload : BitVec 7
  linear : BitVec 7
  linReloadFlag : Bool
  period : BitVec 11
  timer : BitVec 11
  seq : BitVec 5
  length : Byte
  deriving DecidableEq, Repr

/-- Noise channel (63_apu.md R502). -/
structure Noise where
  enabled : Bool
  halt : Bool
  env : Envelope
  mode : Bool
  periodIndex : BitVec 4
  timer : BitVec 12
  lfsr : BitVec 15
  length : Byte
  deriving DecidableEq, Repr

/-- Delta modulation channel (63_apu.md R503). -/
structure Dmc where
  irqEnable : Bool
  loop : Bool
  rateIndex : BitVec 4
  timer : BitVec 9
  level : BitVec 7
  sampleAddr : Word
  sampleLen : BitVec 12
  curAddr : Word
  bytesLeft : BitVec 12
  buffer : Byte
  bufferEmpty : Bool
  shift : Byte
  /-- 1 to 8 -/
  bitsLeft : Nat
  silence : Bool
  deriving DecidableEq, Repr

/-- The audio unit (63_apu.md R500 to R507). -/
structure Apu where
  p1 : Pulse
  p2 : Pulse
  tri : Triangle
  noise : Noise
  dmc : Dmc
  /-- false: 4-step, true: 5-step (R504) -/
  mode5 : Bool
  inhibit : Bool
  /-- CPU cycles since the last sequence reset -/
  seqCycle : Nat
  /-- cycles until a pending sequence reset, 0 to 3 -/
  fcDelay : Nat
  apuOdd : Bool
  frameIrq : Bool
  dmcIrq : Bool
  /-- the last mixer output (R507, R560) -/
  mix : Rat
  deriving DecidableEq, Repr

/-! ## Cartridge -/

/-- Nametable mirroring (64_cartridge_mappers.md R574). -/
inductive Mirroring where
  | horizontal
  | vertical
  | singleLow
  | singleHigh
  | fourScreen
  deriving DecidableEq, Repr

/-- MMC1 (64_cartridge_mappers.md R590). `shift` holds the marker bit with the data; empty is $10. -/
structure Mmc1 where
  shift : BitVec 5
  control : BitVec 5
  chr0 : BitVec 5
  chr1 : BitVec 5
  prg : BitVec 5
  /-- the `cycles` value of the last write to $8000-$FFFF -/
  lastWrite : Option Nat
  deriving DecidableEq, Repr

/-- MMC3 (64_cartridge_mappers.md R605). -/
structure Mmc3 where
  select : Byte
  r : Vector Byte 8
  mirrorBit : Bool
  ramProtect : Byte
  irqLatch : Byte
  irqCounter : Byte
  irqReload : Bool
  irqEnabled : Bool
  irqPending : Bool
  /-- the last A12 level seen -/
  a12 : Bool
  /-- the `cycles` value when A12 last fell -/
  a12LowAt : Nat
  deriving DecidableEq, Repr

/-- The mapper variants, a closed sum (64_cartridge_mappers.md R575). -/
inductive Mapper where
  | nrom
  | mmc1 (m : Mmc1)
  | uxrom (bank : Byte)
  | cnrom (chrBank : Byte)
  | mmc3 (m : Mmc3)
  deriving DecidableEq, Repr

/-- The attached cartridge (64_cartridge_mappers.md R570 to R575). -/
structure Cart where
  prgRom : Memory
  /-- PRG ROM size in 16 KiB units -/
  prgBanks16 : Nat
  /-- CHR ROM, or 8 KiB of CHR RAM where `chrBanks8 = 0` -/
  chr : Memory
  /-- CHR ROM size in 8 KiB units; 0 means CHR RAM -/
  chrBanks8 : Nat
  /-- 8 KiB at CPU $6000-$7FFF -/
  prgRam : Memory
  battery : Bool
  headerMirroring : Mirroring
  mirroring : Mirroring
  mapper : Mapper
  deriving DecidableEq, Repr

/-! ## The whole machine -/

/-- Everything the spec gives the machine (10_state.md and the unit files), with the open parameters and the
model's own draw counter. -/
structure State where
  a : Byte
  x : Byte
  y : Byte
  s : Byte
  pc : Word
  p : Flags
  /-- internal RAM, 2,048 bytes (10_state.md R42) -/
  ram : Memory
  nmiLine : Bool
  nmiRaised : Bool
  nmiPending : Bool
  irqRaised : Bool
  irqPending : Bool
  /-- countdown of a deferred DMC fetch (10_state.md R43, 61_dma.md R388) -/
  dmaDelay : Nat
  /-- the audio unit's request for a sample byte (10_state.md R45) -/
  dmcRequest : Bool
  /-- bus cycles since power-on (10_state.md R44) -/
  cycles : Nat
  runState : RunState
  /-- the step after BRK services no interrupt (10_state.md R47) -/
  noServiceNext : Bool
  strobe : Bool
  pad1 : Pad
  pad2 : Pad
  ppu : Ppu
  apu : Apu
  cart : Cart
  /-- the open parameters (00_scope.md R7); no step writes them -/
  params : Params
  /-- the model's own counter of draws, log entry 5 -/
  drawCount : Nat
  deriving DecidableEq, Repr

/-- Why a step stops the machine. -/
inductive Fault where
  /-- Raised by `step` alone, on a state whose `runState` is fatal: "no step exists after Fatal"
  (60_exceptions.md R340, 00_scope.md R12). Safe: the spec gives no step there either. -/
  | sessionEnded
  deriving DecidableEq, Repr

/-- Why a step is refused. -/
inductive Refusal where
  /-- Raised by an arm of `exec` that has no meaning yet; no arm of this model raises it. Safe. -/
  | notModelled (mnemonic : String)
  deriving DecidableEq, Repr

/-! ## Power-on values and the state after reset -/

/-- Background pipeline at power-on: all 0 (62_ppu.md R420). -/
def BgPipe.powerOn : BgPipe :=
  { ntByte := 0, atBits := 0, ptLo := 0, ptHi := 0, bgLo := 0, bgHi := 0, atLo := 0, atHi := 0 }

/-- A sprite slot at power-on: all 0 (62_ppu.md R420). -/
def SpriteSlot.powerOn : SpriteSlot := { lo := 0, hi := 0, attr := 0, x := 0 }

/-- Sprite evaluation at power-on: all 0 (62_ppu.md R420), which is also its state at dot 65 (R462). -/
def SpriteEval.zero0 : SpriteEval := { n := 0, m := 0, found := 0, copy := 0, done := false, zero := false }

/-- Sprite fetch latches at power-on: all 0. DESIGN CHOICE (unsafe, log entry 9). -/
def SpriteFetch.powerOn : SpriteFetch := { tile := 0, attr := 0, xpos := 0, row := 0, empty := false, lo := 0 }

/-- The picture unit at power-on (62_ppu.md R420), over its open memories (70_reset_and_hazards.md R633). -/
def Ppu.powerOn (oam ntRam : Memory) (palette : Vector (BitVec 6) 32) : Ppu :=
  { dot := 0, scanline := 0, oddFrame := false, ctrl := 0, mask := 0
    vblank := false, spr0Hit := false, sprOverflow := false
    v := 0, t := 0, fineX := 0, w := false, readBuffer := 0, oamAddr := 0, suppressVblank := false
    oam := oam, secOam := Vector.replicate 32 0xFF#8, palette := palette, ntRam := ntRam
    bg := BgPipe.powerOn, slots := Vector.replicate 8 SpriteSlot.powerOn, sprCount := 0, slot0IsZero := false
    eval := SpriteEval.zero0, fetch := SpriteFetch.powerOn, frame := [] }

/-- An envelope at power-on: all 0 (63_apu.md R500). -/
def Envelope.powerOn : Envelope := { start := false, divider := 0, decay := 0, volume := 0, constant := false }

/-- A pulse channel at power-on (63_apu.md R500). -/
def Pulse.powerOn : Pulse :=
  { enabled := false, duty := 0, halt := false, env := Envelope.powerOn, swEnable := false, swPeriod := 0
    swNegate := false, swShift := 0, swReload := false, swDivider := 0, period := 0, timer := 0, seq := 0, length := 0 }

/-- The triangle channel at power-on (63_apu.md R501). -/
def Triangle.powerOn : Triangle :=
  { enabled := false, control := false, linReload := 0, linear := 0, linReloadFlag := false
    period := 0, timer := 0, seq := 0, length := 0 }

/-- The noise channel at power-on: 0 but the shift register, which is 1 (63_apu.md R502). -/
def Noise.powerOn : Noise :=
  { enabled := false, halt := false, env := Envelope.powerOn, mode := false, periodIndex := 0, timer := 0
    lfsr := 1, length := 0 }

/-- The DMC at power-on (63_apu.md R503). -/
def Dmc.powerOn : Dmc :=
  { irqEnable := false, loop := false, rateIndex := 0, timer := 427, level := 0, sampleAddr := 0xC000, sampleLen := 1
    curAddr := 0xC000, bytesLeft := 0, buffer := 0, bufferEmpty := true, shift := 0, bitsLeft := 8, silence := true }

/-- The audio unit at power-on (63_apu.md R500 to R506).
DESIGN CHOICE (unsafe, log entry 3): `mix` is 0 before the first tick computes it. -/
def Apu.powerOn : Apu :=
  { p1 := Pulse.powerOn, p2 := Pulse.powerOn, tri := Triangle.powerOn, noise := Noise.powerOn, dmc := Dmc.powerOn
    mode5 := false, inhibit := false, seqCycle := 0, fcDelay := 0, apuOdd := false, frameIrq := false, dmcIrq := false
    mix := 0 }

/-- The cartridge of `State.reset`: NROM, 32 KiB of PRG ROM with nothing listed, CHR RAM, horizontal mirroring.
DESIGN CHOICE (unsafe, log entry 1): reset happens only when a cartridge is attached (70_reset_and_hazards.md R636),
and the spec names no cartridge. -/
def Cart.blank : Cart :=
  { prgRom := [], prgBanks16 := 2, chr := [], chrBanks8 := 0, prgRam := [], battery := false
    headerMirroring := .horizontal, mirroring := .horizontal, mapper := .nrom }

/-- The machine at power-on, before the reset sequence (70_reset_and_hazards.md R632 to R635). -/
def State.powerOn (params : Params) (cart : Cart) (ram oam ntRam : Memory) (palette : Vector (BitVec 6) 32) : State :=
  { a := 0, x := 0, y := 0, s := 0, pc := 0
    p := { c := false, z := false, i := true, d := false, v := false, n := false }
    ram := ram, nmiLine := false, nmiRaised := false, nmiPending := false, irqRaised := false, irqPending := false
    dmaDelay := 0, dmcRequest := false, cycles := 0, runState := .running, noServiceNext := false
    strobe := false, pad1 := { shift := 0, count := 8 }, pad2 := { shift := 0, count := 8 }
    ppu := Ppu.powerOn oam ntRam palette, apu := Apu.powerOn, cart := cart, params := params, drawCount := 0 }

/-- The machine right after reset: `State.powerOn` after the seven bus cycles of 70_reset_and_hazards.md R630, on the
blank cartridge and memories with nothing listed. `S = $FD`, `I = 1`, `cycles = 7`, the PPU at dot 21 of line 0, the
audio unit seven ticks on, its mixer at entry 45 of the TND table (triangle level 15). `Sys2Proof.Laws.reset_eq_attach` proves that the reset sequence gives this state. -/
def State.reset : State :=
  { a := 0, x := 0, y := 0, s := 0xFD, pc := 0
    p := { c := false, z := false, i := true, d := false, v := false, n := false }
    ram := [], nmiLine := false, nmiRaised := false, nmiPending := false, irqRaised := false, irqPending := false
    dmaDelay := 0, dmcRequest := false, cycles := 7, runState := .running, noServiceNext := false
    strobe := false, pad1 := { shift := 0, count := 8 }, pad2 := { shift := 0, count := 8 }
    ppu := { Ppu.powerOn [] [] (Vector.replicate 32 0) with dot := 21 }
    apu := { Apu.powerOn with
      p1 := { Pulse.powerOn with seq := 4 }
      p2 := { Pulse.powerOn with seq := 4 }
      noise := { Noise.powerOn with timer := 1, lfsr := 0x2000 }
      dmc := { Dmc.powerOn with timer := 420 }
      seqCycle := 7, apuOdd := true, mix := 147303 / 576580 }
    cart := Cart.blank, params := Params.default, drawCount := 0 }

end Sys2Proof.Machine
end

