-- ==== Sys2Proof/Machine/Mem.lean ====
section
/-! DEFINITION. Bit fields and byte order, and the named operations over one memory. -/

namespace Sys2Proof.Machine

/-- `v[lo + n - 1 : lo]` (00_scope.md R8). -/
def field {w : Nat} (v : BitVec w) (lo n : Nat) : BitVec n := v.extractLsb' lo n

/-- `v` with the field that starts at bit `lo` replaced by `f`. -/
def setField {w n : Nat} (v : BitVec w) (lo : Nat) (f : BitVec n) : BitVec w :=
  (v &&& ~~~((BitVec.allOnes n).setWidth w <<< lo)) ||| (f.setWidth w <<< lo)

/-- A bit as a one-bit vector. -/
def bit (b : Bool) : BitVec 1 := BitVec.ofBool b

/-- `{hi, lo}`: a 16-bit value from its bytes, high byte first (20_memory.md R71). -/
def mk16 (hi lo : Byte) : Word := hi ++ lo

/-- Bits 15:8. -/
def hi8 (w : Word) : Byte := w.extractLsb' 8 8

/-- Bits 7:0. -/
def lo8 (w : Word) : Byte := w.extractLsb' 0 8

/-- `zext_16` (00_scope.md R8). -/
def zext16 (b : Byte) : Word := b.setWidth 16

/-- `sext_16` (00_scope.md R8). -/
def sext16 (b : Byte) : Word := b.signExtend 16

/-- The bits in reverse order (`reverse8` of 62_ppu.md R463). -/
def reverse8 (b : Byte) : Byte :=
  bit (b.getLsbD 0) ++ bit (b.getLsbD 1) ++ bit (b.getLsbD 2) ++ bit (b.getLsbD 3) ++ bit (b.getLsbD 4)
    ++ bit (b.getLsbD 5) ++ bit (b.getLsbD 6) ++ bit (b.getLsbD 7)

/-- `known` where `mask` has ones, the drawn value elsewhere (20_memory.md R86). -/
def overlay (mask known drawn : Byte) : Byte := (known &&& mask) ||| (drawn &&& ~~~mask)

/-- The byte at an address. -/
def Memory.read : Memory → Nat → Byte
  | [], _ => Memory.unlisted
  | c :: m, a => if c.1 = a then c.2 else Memory.read m a

/-- Put a cell in front unless it holds what an unlisted address reads as. -/
def Memory.cons (a : Nat) (v : Byte) (m : Memory) : Memory :=
  if v = Memory.unlisted then m else (a, v) :: m

/-- Store a byte, keeping the canonical form. -/
def Memory.write : Memory → Nat → Byte → Memory
  | [], a, v => Memory.cons a v []
  | c :: m, a, v =>
    if a < c.1 then Memory.cons a v (c :: m)
    else if a = c.1 then Memory.cons a v m
    else c :: Memory.write m a v

/-- The canonical form above a bound: addresses strictly rising from `lo`, no cell equal to the unlisted byte. -/
def Memory.wfFrom : Nat → Memory → Bool
  | _, [] => true
  | lo, c :: m => decide (lo ≤ c.1) && decide (c.2 ≠ Memory.unlisted) && Memory.wfFrom (c.1 + 1) m

/-- The one canonical form of a memory. -/
def Memory.wf (m : Memory) : Bool := Memory.wfFrom 0 m

/-- No listed address reaches `n`: the memory holds at most `n` bytes. -/
def Memory.below (n : Nat) (m : Memory) : Bool := m.all fun c => decide (c.1 < n)

/-- The memory that holds `bytes` from address `a` on. -/
def Memory.ofBytes : Nat → List Byte → Memory
  | _, [] => []
  | a, b :: bs => Memory.cons a b (Memory.ofBytes (a + 1) bs)

end Sys2Proof.Machine
end

