-- ==== Sys2Proof/Machine/ApuUnit.lean ====
section
/-! DEFINITION. The audio unit: the tick, the channel units, the frame sequencer, the registers and the mixer.
63_apu.md R500 to R561. -/

namespace Sys2Proof.Machine

/-! ## Tables -/

/-- `LEN` (R509). -/
def lengthTable : List Byte :=
  [10, 254, 20, 2, 40, 4, 80, 6, 160, 8, 60, 10, 14, 12, 26, 14]
    ++ [12, 16, 24, 18, 48, 20, 96, 22, 192, 24, 72, 26, 16, 28, 32, 30]

/-- `DUTY` (R513), one byte a row, step 0 in bit 0. -/
def dutyTable : List Byte := [0b00000010, 0b00000110, 0b00011110, 0b11111001]

/-- `NOISE` (R517), in CPU cycles. -/
def noiseTable : List Nat := [4, 8, 16, 32, 64, 96, 128, 160, 202, 254, 380, 508, 762, 1016, 2034, 4068]

/-- `RATE` (R520), in CPU cycles per output bit. -/
def dmcRateTable : List Nat := [428, 380, 340, 320, 286, 254, 226, 214, 190, 160, 142, 128, 106, 84, 72, 54]

/-- `LEN[i]`. -/
def lengthOf (i : BitVec 5) : Byte := lengthTable.getD i.toNat 0

/-! ## Shared units -/

/-- `ClockEnvelope` (R510). -/
def Envelope.clock (loop : Bool) (e : Envelope) : Envelope :=
  if e.start then { e with start := false, decay := 15, divider := e.volume }
  else if e.divider = 0 then
    { e with divider := e.volume, decay := if e.decay ≠ 0 then e.decay - 1 else if loop then 15 else 0 }
  else { e with divider := e.divider - 1 }

/-- `EnvOut` (R510). -/
def Envelope.out (e : Envelope) : Nat := if e.constant then e.volume.toNat else e.decay.toNat

/-- The volume bits of $4000, $4004 and $400C (R543, R545). -/
def Envelope.writeVolume (d : Byte) (e : Envelope) : Envelope :=
  { e with constant := d.getLsbD 4, volume := field d 0 4 }

/-- `ClockLength` (R511). -/
def clockLength (halt : Bool) (length : Byte) : Byte := if length ≠ 0 ∧ halt = false then length - 1 else length

/-- The length after a write of `d` to $4003, $4007, $400B or $400F (R509). -/
def loadLength (enabled : Bool) (d length : Byte) : Byte := if enabled then lengthOf (field d 3 5) else length

/-! ## Pulse channels (R500, R512 to R514) -/

/-- `Target` (R512); `first` is true of pulse 1, which subtracts one more. It may be negative. -/
def Pulse.target (first : Bool) (p : Pulse) : Int :=
  let delta : Nat := (p.period >>> p.swShift.toNat).toNat
  if p.swNegate then (p.period.toNat : Int) - delta - (if first then 1 else 0) else (p.period.toNat : Int) + delta

/-- `Muted` (R512), evaluated also when the sweep is disabled. -/
def Pulse.muted (first : Bool) (p : Pulse) : Bool := decide (p.period.toNat < 8) || decide (0x7FF < p.target first)

/-- The period after a half frame (R512). -/
def Pulse.sweptPeriod (first : Bool) (p : Pulse) : BitVec 11 :=
  if p.swDivider = 0 ∧ p.swEnable ∧ p.swShift ≠ 0 ∧ p.muted first = false then BitVec.ofInt 11 (p.target first)
  else p.period

/-- `ClockSweep` (R512). -/
def Pulse.clockSweep (first : Bool) (p : Pulse) : Pulse :=
  if p.swDivider = 0 ∨ p.swReload then
    { p with period := p.sweptPeriod first, swDivider := p.swPeriod, swReload := false }
  else { p with period := p.sweptPeriod first, swDivider := p.swDivider - 1 }

/-- `PulseTimer` (R513). -/
def Pulse.clockTimer (p : Pulse) : Pulse :=
  if p.timer = 0 then { p with timer := p.period, seq := p.seq + 1 } else { p with timer := p.timer - 1 }

/-- `PulseOut` (R514). -/
def Pulse.out (first : Bool) (p : Pulse) : Nat :=
  if p.length = 0 ∨ p.muted first ∨ (dutyTable.getD p.duty.toNat 0).getLsbD p.seq.toNat = false then 0 else p.env.out

/-- $4000/$4004 (R543). -/
def Pulse.writeControl (d : Byte) (p : Pulse) : Pulse :=
  { p with duty := field d 6 2, halt := d.getLsbD 5, env := p.env.writeVolume d }

/-- $4001/$4005 (R543). -/
def Pulse.writeSweep (d : Byte) (p : Pulse) : Pulse :=
  { p with
    swEnable := d.getLsbD 7, swPeriod := field d 4 3, swNegate := d.getLsbD 3, swShift := field d 0 3
    swReload := true }

/-- $4002/$4006 (R543). -/
def Pulse.writeTimerLow (d : Byte) (p : Pulse) : Pulse := { p with period := setField p.period 0 d }

/-- $4003/$4007 (R543). -/
def Pulse.writeTimerHigh (d : Byte) (p : Pulse) : Pulse :=
  { p with
    period := setField p.period 8 (field d 0 3), length := loadLength p.enabled d p.length, seq := 0
    env := { p.env with start := true } }

/-- The channel after its $4015 enable bit is written (R547). -/
def Pulse.setEnabled (on : Bool) (p : Pulse) : Pulse :=
  { p with enabled := on, length := if on then p.length else 0 }

/-! ## Triangle (R501, R515, R516) -/

/-- `TriangleTimer` (R515). -/
def Triangle.clockTimer (t : Triangle) : Triangle :=
  if t.timer = 0 then { t with timer := t.period, seq := if t.linear ≠ 0 ∧ t.length ≠ 0 then t.seq + 1 else t.seq }
  else { t with timer := t.timer - 1 }

/-- `ClockLinear` (R515). -/
def Triangle.clockLinear (t : Triangle) : Triangle :=
  { t with
    linear := if t.linReloadFlag then t.linReload else if t.linear ≠ 0 then t.linear - 1 else t.linear
    linReloadFlag := t.linReloadFlag && t.control }

/-- The triangle's level: `TRI[seq]` (R516). DESIGN CHOICE (unsafe, log entry 19): a triangle whose length is 0 holds
its level, as R516 says of the gated sequencer, where R511 says that a channel with length 0 outputs 0. -/
def Triangle.out (t : Triangle) : Nat := if t.seq.toNat < 16 then 15 - t.seq.toNat else t.seq.toNat - 16

/-- $4008 (R544). -/
def Triangle.writeControl (d : Byte) (t : Triangle) : Triangle :=
  { t with control := d.getLsbD 7, linReload := field d 0 7 }

/-- $400A (R544). -/
def Triangle.writeTimerLow (d : Byte) (t : Triangle) : Triangle := { t with period := setField t.period 0 d }

/-- $400B (R544). -/
def Triangle.writeTimerHigh (d : Byte) (t : Triangle) : Triangle :=
  { t with
    period := setField t.period 8 (field d 0 3), length := loadLength t.enabled d t.length, linReloadFlag := true }

/-- The channel after its $4015 enable bit is written (R547). -/
def Triangle.setEnabled (on : Bool) (t : Triangle) : Triangle :=
  { t with enabled := on, length := if on then t.length else 0 }

/-! ## Noise (R502, R517, R518) -/

/-- One step of the shift register (R517). -/
def Noise.shiftLfsr (n : Noise) : BitVec 15 :=
  let fb := n.lfsr.getLsbD 0 != (if n.mode then n.lfsr.getLsbD 6 else n.lfsr.getLsbD 1)
  (n.lfsr >>> 1) ||| ((bit fb).setWidth 15 <<< 14)

/-- `NoiseTimer` (R517). -/
def Noise.clockTimer (n : Noise) : Noise :=
  if n.timer = 0 then
    { n with timer := BitVec.ofNat 12 (noiseTable.getD n.periodIndex.toNat 4 - 1), lfsr := n.shiftLfsr }
  else { n with timer := n.timer - 1 }

/-- Noise output (R518). -/
def Noise.out (n : Noise) : Nat := if n.length = 0 ∨ n.lfsr.getLsbD 0 then 0 else n.env.out

/-- $400C (R545). -/
def Noise.writeControl (d : Byte) (n : Noise) : Noise := { n with halt := d.getLsbD 5, env := n.env.writeVolume d }

/-- $400E (R545). -/
def Noise.writePeriod (d : Byte) (n : Noise) : Noise := { n with mode := d.getLsbD 7, periodIndex := field d 0 4 }

/-- $400F (R545). -/
def Noise.writeLength (d : Byte) (n : Noise) : Noise :=
  { n with length := loadLength n.enabled d n.length, env := { n.env with start := true } }

/-- The channel after its $4015 enable bit is written (R547). -/
def Noise.setEnabled (on : Bool) (n : Noise) : Noise :=
  { n with enabled := on, length := if on then n.length else 0 }

/-! ## DMC (R503, R520 to R523, R540, R541) -/

/-- The level after one output bit (R521). -/
def Dmc.nextLevel (d : Dmc) : BitVec 7 :=
  if d.silence then d.level
  else if d.shift.getLsbD 0 then (if d.level.toNat ≤ 125 then d.level + 2 else d.level)
  else if 2 ≤ d.level.toNat then d.level - 2
  else d.level

/-- The start of a new output cycle: take the buffered byte, or fall silent (R521). -/
def Dmc.reloadShift (d : Dmc) : Dmc :=
  if d.bufferEmpty then { d with bitsLeft := 8, silence := true }
  else { d with bitsLeft := 8, silence := false, shift := d.buffer, bufferEmpty := true }

/-- `DmcTimer` (R521). -/
def Dmc.clockTimer (d : Dmc) : Dmc :=
  if d.timer ≠ 0 then { d with timer := d.timer - 1 }
  else
    let d1 := { d with
      timer := BitVec.ofNat 9 (dmcRateTable.getD d.rateIndex.toNat 428 - 1)
      level := d.nextLevel, shift := d.shift >>> 1, bitsLeft := d.bitsLeft - 1 }
    if d1.bitsLeft = 0 then d1.reloadShift else d1

/-- The condition of a DMA request (R540). -/
def Dmc.wantsByte (d : Dmc) : Bool := d.bufferEmpty && d.bytesLeft != 0

/-- The next sample address, wrapping from $FFFF to $8000 (R522, R541). -/
def nextSampleAddr (a : Word) : Word := if a = 0xFFFF then 0x8000 else a + 1

/-- `DmcDeliver(v)` (R522): the DMC after the fetch, with `left` the value of `bytesLeft - 1`. -/
def Dmc.deliver (v : Byte) (left : BitVec 12) (d : Dmc) : Dmc :=
  if left = 0 ∧ d.loop then
    { d with buffer := v, bufferEmpty := false, curAddr := d.sampleAddr, bytesLeft := d.sampleLen }
  else { d with buffer := v, bufferEmpty := false, curAddr := nextSampleAddr d.curAddr, bytesLeft := left }

/-- Whether the delivered byte raises the DMC interrupt (R522, R523). -/
def Dmc.deliverRaises (left : BitVec 12) (d : Dmc) : Bool := left == 0 && !d.loop && d.irqEnable

/-- `dmcIrq` and the channel after $4010 (R546). -/
def Dmc.writeControl (v : Byte) (d : Dmc) : Dmc :=
  { d with irqEnable := v.getLsbD 7, loop := v.getLsbD 6, rateIndex := field v 0 4 }

/-- The sample start of $4012 (R546). -/
def Dmc.writeAddress (v : Byte) (d : Dmc) : Dmc := { d with sampleAddr := 0xC000#16 + (zext16 v <<< 6) }

/-- The sample length of $4013 (R546). -/
def Dmc.writeLength (v : Byte) (d : Dmc) : Dmc := { d with sampleLen := (v.setWidth 12 <<< 4) + 1 }

/-- Whether a $4015 write with bit 4 = `on` starts the sample (R547). -/
def Dmc.starts (on : Bool) (d : Dmc) : Bool := on && d.bytesLeft == 0

/-- The channel after its $4015 enable bit is written (R547). -/
def Dmc.setEnabled (on : Bool) (d : Dmc) : Dmc :=
  if on = false then { d with bytesLeft := 0 }
  else if d.bytesLeft = 0 then { d with curAddr := d.sampleAddr, bytesLeft := d.sampleLen }
  else d

/-! ## Frame sequencer (R504, R530 to R533) -/

/-- `Quarter` (R531). -/
def Apu.quarter (u : Apu) : Apu :=
  { u with
    p1 := { u.p1 with env := u.p1.env.clock u.p1.halt }
    p2 := { u.p2 with env := u.p2.env.clock u.p2.halt }
    noise := { u.noise with env := u.noise.env.clock u.noise.halt }
    tri := u.tri.clockLinear }

/-- `Half` (R531). -/
def Apu.half (u : Apu) : Apu :=
  { u with
    p1 := Pulse.clockSweep true { u.p1 with length := clockLength u.p1.halt u.p1.length }
    p2 := Pulse.clockSweep false { u.p2 with length := clockLength u.p2.halt u.p2.length }
    tri := { u.tri with length := clockLength u.tri.control u.tri.length }
    noise := { u.noise with length := clockLength u.noise.halt u.noise.length } }

/-- `FrameIrqSet` (R532). -/
def Apu.frameIrqSet (u : Apu) : Apu := { u with frameIrq := u.frameIrq || !u.inhibit }

/-- The work of the sequencer step `seqCycle`, after its increment (R530). -/
def Apu.sequencerStep (u : Apu) : Apu :=
  if u.seqCycle = 7457 then u.quarter
  else if u.seqCycle = 14913 then u.quarter.half
  else if u.seqCycle = 22371 then u.quarter
  else if u.mode5 then
    if u.seqCycle = 37281 then u.quarter.half
    else if u.seqCycle = 37282 then { u with seqCycle := 0 }
    else u
  else if u.seqCycle = 29828 then u.frameIrqSet
  else if u.seqCycle = 29829 then u.quarter.half.frameIrqSet
  else if u.seqCycle = 29830 then { u.frameIrqSet with seqCycle := 0 }
  else u

/-- `FrameSequencerTick` (R530): the tick that ends the delay of R549 resets the count and does not advance it. -/
def Apu.sequencerTick (u : Apu) : Apu :=
  if u.fcDelay = 1 then { u with fcDelay := 0, seqCycle := 0 }
  else Apu.sequencerStep { u with fcDelay := u.fcDelay - 1, seqCycle := u.seqCycle + 1 }

/-! ## Mixer (R560) -/

/-- `PULSE_TABLE[n]` (R560), as an exact rational. -/
def pulseTable (n : Nat) : Rat := if n = 0 then 0 else (9552 / 100) / (8128 / (n : Rat) + 100)

/-- `TND_TABLE[n]` (R560), as an exact rational. -/
def tndTable (n : Nat) : Rat := if n = 0 then 0 else (16367 / 100) / (24329 / (n : Rat) + 100)

/-- `Mix()` (R560). -/
def Apu.mixOut (u : Apu) : Rat :=
  pulseTable (u.p1.out true + u.p2.out false) + tndTable (3 * u.tri.out + 2 * u.noise.out + u.dmc.level.toNat)

/-! ## The tick (R508) -/

/-- The pulse timers, on ticks where `apuOdd` is true (R505, R508). -/
def Apu.pulseTimers (u : Apu) : Apu :=
  if u.apuOdd then { u with p1 := u.p1.clockTimer, p2 := u.p2.clockTimer } else u

/-- `apu.Tick()` (R508), but for the request of R540, which is a latch of the CPU. -/
def Apu.tick (u : Apu) : Apu :=
  let u1 := (Apu.sequencerTick { u with apuOdd := !u.apuOdd }).pulseTimers
  let u2 := { u1 with tri := u1.tri.clockTimer, noise := u1.noise.clockTimer, dmc := u1.dmc.clockTimer }
  { u2 with mix := u2.mixOut }

/-! ## Registers (R543 to R549) -/

/-- A write of `d` to $4000-$4013 (R543 to R546); `r` is the offset from $4000. -/
def Apu.writeChannel (r : Nat) (d : Byte) (u : Apu) : Apu :=
  match r with
  | 0x00 => { u with p1 := u.p1.writeControl d }
  | 0x01 => { u with p1 := u.p1.writeSweep d }
  | 0x02 => { u with p1 := u.p1.writeTimerLow d }
  | 0x03 => { u with p1 := u.p1.writeTimerHigh d }
  | 0x04 => { u with p2 := u.p2.writeControl d }
  | 0x05 => { u with p2 := u.p2.writeSweep d }
  | 0x06 => { u with p2 := u.p2.writeTimerLow d }
  | 0x07 => { u with p2 := u.p2.writeTimerHigh d }
  | 0x08 => { u with tri := u.tri.writeControl d }
  | 0x0A => { u with tri := u.tri.writeTimerLow d }
  | 0x0B => { u with tri := u.tri.writeTimerHigh d }
  | 0x0C => { u with noise := u.noise.writeControl d }
  | 0x0E => { u with noise := u.noise.writePeriod d }
  | 0x0F => { u with noise := u.noise.writeLength d }
  | 0x10 => { u with dmc := u.dmc.writeControl d, dmcIrq := u.dmcIrq && d.getLsbD 7 }
  | 0x11 => { u with dmc := { u.dmc with level := field d 0 7 } }
  | 0x12 => { u with dmc := u.dmc.writeAddress d }
  | 0x13 => { u with dmc := u.dmc.writeLength d }
  | _ => u

/-- $4015 write (R547), but for the CPU-side request and delay. -/
def Apu.writeEnables (d : Byte) (u : Apu) : Apu :=
  { u with
    p1 := u.p1.setEnabled (d.getLsbD 0)
    p2 := u.p2.setEnabled (d.getLsbD 1)
    tri := u.tri.setEnabled (d.getLsbD 2)
    noise := u.noise.setEnabled (d.getLsbD 3)
    dmcIrq := false
    dmc := u.dmc.setEnabled (d.getLsbD 4) }

/-- The value of a $4015 read, `drawn` in the open-bus bit 5 (R548). -/
def Apu.statusValue (u : Apu) (drawn : Byte) : Byte :=
  overlay 0xDF#8
    (bit u.dmcIrq ++ bit u.frameIrq ++ bit false ++ bit (u.dmc.bytesLeft != 0) ++ bit (u.noise.length != 0)
      ++ bit (u.tri.length != 0) ++ bit (u.p2.length != 0) ++ bit (u.p1.length != 0)) drawn

/-- The effect of a $4015 read (R548). -/
def Apu.readStatus (u : Apu) : Apu := { u with frameIrq := false }

/-- $4017 write in bus cycle `now` (R549): mode, inhibit and the 5-step clock at once, the reset 2 or 3 ticks later. -/
def Apu.writeFrameCounter (now : Nat) (d : Byte) (u : Apu) : Apu :=
  let u1 := { u with mode5 := d.getLsbD 7, inhibit := d.getLsbD 6, frameIrq := u.frameIrq && !d.getLsbD 6 }
  let u2 := if d.getLsbD 7 then u1.quarter.half else u1
  { u2 with fcDelay := if now % 2 = 1 then 3 else 2 }

/-- The audio unit's share of the IRQ line: frame or DMC interrupt (R506). -/
def Apu.irqLine (u : Apu) : Bool := u.frameIrq || u.dmcIrq

end Sys2Proof.Machine
end

