-- ==== Sys2Proof/Machine/Flags.lean ====
section
/-! DEFINITION. The status byte and every flag computation. 10_state.md R35 to R41, 42_arith_logic_shift.md R210,
R211. -/

namespace Sys2Proof.Machine

/-- `PushedP(b)` (10_state.md R35): bit 5 is 1 and bit 4 is the push-time constant `b`. -/
def Flags.pushed (b : Bool) (f : Flags) : Byte :=
  bit f.n ++ bit f.v ++ bit true ++ bit b ++ bit f.d ++ bit f.i ++ bit f.z ++ bit f.c

/-- The flags of a pulled status byte; bits 5 and 4 are discarded (10_state.md R35). -/
def Flags.ofByte (v : Byte) : Flags :=
  { c := v.getLsbD 0, z := v.getLsbD 1, i := v.getLsbD 2, d := v.getLsbD 3, v := v.getLsbD 6, n := v.getLsbD 7 }

/-- `setNZ(v)` (00_scope.md R10). -/
def Flags.setNZ (v : Byte) (f : Flags) : Flags := { f with n := v.getLsbD 7, z := v == 0 }

/-- A carry as a number. -/
def carryNat (c : Bool) : Nat := if c then 1 else 0

/-- The sum byte of `AddWithCarry(a, b, cin)` (R211). -/
def addResult (a b : Byte) (cin : Bool) : Byte := BitVec.ofNat 8 (a.toNat + b.toNat + carryNat cin)

/-- The flags of `AddWithCarry(a, b, cin)` (R211): binary whatever `D` holds (R210). -/
def Flags.addWithCarry (a b : Byte) (cin : Bool) (f : Flags) : Flags :=
  let r := addResult a b cin
  Flags.setNZ r
    { f with
      c := decide (255 < a.toNat + b.toNat + carryNat cin)
      v := ((a ^^^ r) &&& (b ^^^ r)).getLsbD 7 }

/-- `Compare(reg, v)` (R211): V is unchanged. -/
def Flags.compare (reg v : Byte) (f : Flags) : Flags :=
  Flags.setNZ (reg - v) { f with c := decide (v.toNat ≤ reg.toNat) }

/-- The result of `ShiftLeft(v, cin)` (R211). -/
def shiftLeft (v : Byte) (cin : Bool) : Byte := (v <<< 1) ||| (bit cin).setWidth 8

/-- The flags of `ShiftLeft(v, cin)` (R211). -/
def Flags.shiftLeft (v : Byte) (cin : Bool) (f : Flags) : Flags :=
  Flags.setNZ (Machine.shiftLeft v cin) { f with c := v.getLsbD 7 }

/-- The result of `ShiftRight(v, cin)` (R211). -/
def shiftRight (v : Byte) (cin : Bool) : Byte := (v >>> 1) ||| ((bit cin).setWidth 8 <<< 7)

/-- The flags of `ShiftRight(v, cin)` (R211). -/
def Flags.shiftRight (v : Byte) (cin : Bool) (f : Flags) : Flags :=
  Flags.setNZ (Machine.shiftRight v cin) { f with c := v.getLsbD 0 }

/-- The flags of `BIT` (R217): N and V from the operand, Z from `A & v`. -/
def Flags.bitTest (a v : Byte) (f : Flags) : Flags :=
  { f with z := (a &&& v) == 0, n := v.getLsbD 7, v := v.getLsbD 6 }

/-- The flags of `ANC` on its result `r` (44_unofficial.md R301): C is a copy of N. -/
def Flags.anc (r : Byte) (f : Flags) : Flags := { Flags.setNZ r f with c := r.getLsbD 7 }

/-- The result of `ARR` (44_unofficial.md R303): `t` shifted right with the old carry on top. -/
def arrResult (t : Byte) (c : Bool) : Byte := shiftRight t c

/-- The flags of `ARR` on its result `r` (44_unofficial.md R303). -/
def Flags.arr (r : Byte) (f : Flags) : Flags :=
  { Flags.setNZ r f with c := r.getLsbD 6, v := r.getLsbD 6 != r.getLsbD 5 }

end Sys2Proof.Machine
end

