-- ==== Sys2Proof/Machine/Mapper.lean ====
section
/-! DEFINITION. The cartridge: bank arithmetic, the five mapper variants and their interface, nametable mirroring.
64_cartridge_mappers.md R570 to R618. -/

namespace Sys2Proof.Machine

/-- CHR is RAM exactly where the header gives no CHR ROM (R570, R572). -/
def Cart.chrIsRam (c : Cart) : Bool := c.chrBanks8 == 0

/-- PRG ROM size in bytes (R572). -/
def Cart.prgSize (c : Cart) : Nat := 16384 * c.prgBanks16

/-- CHR size in bytes: the ROM of the header or 8 KiB of RAM (R572). -/
def Cart.chrSize (c : Cart) : Nat := if c.chrBanks8 = 0 then 8192 else 8192 * c.chrBanks8

/-- Bank arithmetic of R577: byte `offset` of bank `b` of size `s` in a memory of `total` bytes, the bank number
wrapping modulo the bank count.
DESIGN CHOICE (unsafe, log entry 10): the bank count is `total / s` rounded down where `total` is no multiple of `s`;
where the memory holds no bank of that size, no byte answers. -/
def bankIndex (total s b offset : Nat) : Option Nat :=
  if total / s = 0 then none else some (b % (total / s) * s + offset)

/-! ## PRG mapping -/

/-- NROM and CNROM: the ROM repeats from $8000 (R580, R587). -/
def prgFixed (total a : Nat) : Option Nat := some ((a - 0x8000) % total)

/-- UxROM: a switched 16 KiB bank at $8000, the last one at $C000 (R585). -/
def prgUxrom (total : Nat) (bank : Byte) (a : Nat) : Option Nat :=
  if a < 0xC000 then bankIndex total 0x4000 bank.toNat (a - 0x8000)
  else bankIndex total 0x4000 (total / 0x4000 - 1) (a - 0xC000)

/-- MMC1 by `control[3:2]` (R594). -/
def prgMmc1 (total : Nat) (m : Mmc1) (a : Nat) : Option Nat :=
  if field m.control 2 2 = 2 then
    if a < 0xC000 then bankIndex total 0x4000 0 (a - 0x8000)
    else bankIndex total 0x4000 (field m.prg 0 4).toNat (a - 0xC000)
  else if field m.control 2 2 = 3 then
    if a < 0xC000 then bankIndex total 0x4000 (field m.prg 0 4).toNat (a - 0x8000)
    else bankIndex total 0x4000 (total / 0x4000 - 1) (a - 0xC000)
  else bankIndex total 0x8000 (field m.prg 1 3).toNat (a - 0x8000)

/-- MMC3's 8 KiB bank at `a` (R608), with `last` the number of the last bank. -/
def mmc3PrgBank (m : Mmc3) (last a : Nat) : Nat :=
  let r6 := (field m.r[6] 0 6).toNat
  let r7 := (field m.r[7] 0 6).toNat
  if a < 0xA000 then (if m.select.getLsbD 6 then last - 1 else r6)
  else if a < 0xC000 then r7
  else if a < 0xE000 then (if m.select.getLsbD 6 then r6 else last - 1)
  else last

/-- MMC3 PRG mapping (R608). -/
def prgMmc3 (total : Nat) (m : Mmc3) (a : Nat) : Option Nat :=
  bankIndex total 0x2000 (mmc3PrgBank m (total / 0x2000 - 1) a) (a % 0x2000)

/-- The place in PRG ROM of CPU address `a` in $8000-$FFFF (R580, R585, R587, R594, R608). -/
def Cart.prgIndex (c : Cart) (a : Nat) : Option Nat :=
  match c.mapper with
  | .nrom => prgFixed c.prgSize a
  | .mmc1 m => prgMmc1 c.prgSize m a
  | .uxrom bank => prgUxrom c.prgSize bank a
  | .cnrom _ => prgFixed c.prgSize a
  | .mmc3 m => prgMmc3 c.prgSize m a

/-! ## CHR mapping -/

/-- MMC1 CHR mapping by `control[4]` (R595). -/
def chrMmc1 (total : Nat) (m : Mmc1) (a : Nat) : Option Nat :=
  if m.control.getLsbD 4 then
    if a < 0x1000 then bankIndex total 0x1000 m.chr0.toNat a
    else bankIndex total 0x1000 m.chr1.toNat (a - 0x1000)
  else bankIndex total 0x2000 (field m.chr0 1 4).toNat a

/-- MMC3's 1 KiB CHR bank for the window `k` of the uninverted table (R609). -/
def mmc3ChrBank (m : Mmc3) (k : Nat) : Nat :=
  match k with
  | 0 => (m.r[0] &&& 0xFE#8).toNat
  | 1 => (m.r[0] ||| 1#8).toNat
  | 2 => (m.r[1] &&& 0xFE#8).toNat
  | 3 => (m.r[1] ||| 1#8).toNat
  | 4 => m.r[2].toNat
  | 5 => m.r[3].toNat
  | 6 => m.r[4].toNat
  | _ => m.r[5].toNat

/-- MMC3 CHR mapping: `select[7]` exchanges the two halves (R609). -/
def chrMmc3 (total : Nat) (m : Mmc3) (a : Nat) : Option Nat :=
  let k := a / 0x400
  let window := if m.select.getLsbD 7 then (k + 4) % 8 else k
  bankIndex total 0x400 (mmc3ChrBank m window) (a % 0x400)

/-- The place in CHR of PPU address `a` in $0000-$1FFF (R580, R585, R587, R595, R609). -/
def Cart.chrIndex (c : Cart) (a : Nat) : Option Nat :=
  match c.mapper with
  | .nrom => some a
  | .mmc1 m => chrMmc1 c.chrSize m a
  | .uxrom _ => some a
  | .cnrom chrBank => bankIndex c.chrSize 0x2000 chrBank.toNat a
  | .mmc3 m => chrMmc3 c.chrSize m a

/-- `ChrRead` (R578). Every CHR memory holds at least one bank of every size a variant uses. -/
def Cart.chrRead (c : Cart) (a : Nat) : Byte :=
  match c.chrIndex a with
  | some i => c.chr.read i
  | none => Memory.unlisted

/-- `ChrWrite`: stores when CHR is RAM, ignored for CHR ROM (R578). -/
def Cart.chrWrite (c : Cart) (a : Nat) (v : Byte) : Cart :=
  if c.chrIsRam then
    match c.chrIndex a with
    | some i => { c with chr := c.chr.write i v }
    | none => c
  else c

/-! ## CPU side -/

/-- `CpuRead` (R578) of an address in $4020-$FFFF; `none` is open bus (20_memory.md R82). -/
def Cart.cpuRead (c : Cart) (a : Word) : Option Byte :=
  if a.toNat < 0x6000 then none
  else if a.toNat < 0x8000 then some (c.prgRam.read (a.toNat - 0x6000))
  else (c.prgIndex a.toNat).map c.prgRom.read

/-- The mirroring that MMC1's `control[1:0]` selects (R592). -/
def mmc1Mirroring (control : BitVec 5) : Mirroring :=
  match (field control 0 2).toNat with
  | 0 => .singleLow
  | 1 => .singleHigh
  | 2 => .vertical
  | _ => .horizontal

/-- The load of the register that the fifth serial write's address selects (R591). -/
def Mmc1.load (m : Mmc1) (a : Word) (full : BitVec 5) : Mmc1 :=
  match (field a 13 2).toNat with
  | 0 => { m with control := full }
  | 1 => { m with chr0 := full }
  | 2 => { m with chr1 := full }
  | _ => { m with prg := full }

/-- One serial write of MMC1 in bus cycle `now`: ignored right after another one, a reset when bit 7 is set, else one
bit (R591, R593). -/
def Mmc1.write (now : Nat) (a : Word) (v : Byte) (m : Mmc1) : Mmc1 :=
  if m.lastWrite.any (fun t => now == t + 1) then { m with lastWrite := some now }
  else if v.getLsbD 7 then
    { m with lastWrite := some now, shift := 0x10, control := m.control ||| 0x0C#5 }
  else
    let next : BitVec 5 := (m.shift >>> 1) ||| ((bit (v.getLsbD 0)).setWidth 5 <<< 4)
    if m.shift.getLsbD 0 then Mmc1.load { m with lastWrite := some now, shift := 0x10 } a next
    else { m with lastWrite := some now, shift := next }

/-- Whether this serial write loads `control`, and with it the mirroring (R591, R592). -/
def Mmc1.loadsControl (now : Nat) (a : Word) (v : Byte) (m : Mmc1) : Bool :=
  !(m.lastWrite.any fun t => now == t + 1) && !v.getLsbD 7 && m.shift.getLsbD 0 && field a 13 2 == 0

/-- MMC3 register write, chosen by `a[14:13]` and `a[0]` (R606, R607, R610 to R613, R616, R617). -/
def Mmc3.write (a : Word) (v : Byte) (m : Mmc3) : Mmc3 :=
  match (field a 13 2).toNat, a.getLsbD 0 with
  | 0, false => { m with select := v }
  | 0, true => { m with r := m.r.setIfInBounds (field m.select 0 3).toNat v }
  | 1, false => { m with mirrorBit := v.getLsbD 0 }
  | 1, true => { m with ramProtect := v }
  | 2, false => { m with irqLatch := v }
  | 2, true => { m with irqCounter := 0, irqReload := true }
  | _, false => { m with irqEnabled := false, irqPending := false }
  | _, true => { m with irqEnabled := true }

/-- Whether this write is MMC3's mirroring register (R606, R616). -/
def mmc3SetsMirroring (a : Word) : Bool := field a 13 2 == 1 && !a.getLsbD 0

/-- The variant's register write at $8000-$FFFF in bus cycle `now` (R578, R580, R585, R587, R591, R606).
DEDUCED (unsafe, log entry 11): MMC1's `mirroring` follows `control[1:0]` from the first load of `control` on. -/
def Cart.writeRegister (now : Nat) (a : Word) (v : Byte) (c : Cart) : Cart :=
  match c.mapper with
  | .nrom => c
  | .mmc1 m =>
    { c with
      mapper := .mmc1 (m.write now a v)
      mirroring := if m.loadsControl now a v then mmc1Mirroring (m.write now a v).control else c.mirroring }
  | .uxrom _ => { c with mapper := .uxrom v }
  | .cnrom _ => { c with mapper := .cnrom v }
  | .mmc3 m =>
    { c with
      mapper := .mmc3 (m.write a v)
      mirroring :=
        if mmc3SetsMirroring a && c.headerMirroring != .fourScreen then
          (if v.getLsbD 0 then .horizontal else .vertical)
        else c.mirroring }

/-- `CpuWrite` (R578) to an address in $4020-$FFFF in bus cycle `now`. ROM is never written. -/
def Cart.cpuWrite (now : Nat) (a : Word) (v : Byte) (c : Cart) : Cart :=
  if a.toNat < 0x6000 then c
  else if a.toNat < 0x8000 then { c with prgRam := c.prgRam.write (a.toNat - 0x6000) v }
  else c.writeRegister now a v

/-! ## PPU side -/

/-- The MMC3 counter clock (R615). -/
def Mmc3.clockCounter (m : Mmc3) : Mmc3 :=
  let counter := if m.irqCounter = 0 ∨ m.irqReload = true then m.irqLatch else m.irqCounter - 1
  { m with
    irqCounter := counter
    irqReload := false
    irqPending := m.irqPending || (counter == 0 && m.irqEnabled) }

/-- MMC3's view of the PPU address bus in bus cycle `now` (R614). -/
def Mmc3.setPpuAddress (now : Nat) (p : BitVec 14) (m : Mmc3) : Mmc3 :=
  let high := p.getLsbD 12
  let m1 := if high && !m.a12 && decide (3 ≤ now - m.a12LowAt) then m.clockCounter else m
  { m1 with a12 := high, a12LowAt := if !high && m.a12 then now else m1.a12LowAt }

/-- `SetPpuAddress` (R578): only MMC3 reacts. -/
def Cart.setPpuAddress (now : Nat) (p : BitVec 14) (c : Cart) : Cart :=
  match c.mapper with
  | .mmc3 m => { c with mapper := .mmc3 (m.setPpuAddress now p) }
  | _ => c

/-- `IrqLine()` (R578, R615). -/
def Cart.irqLine (c : Cart) : Bool :=
  match c.mapper with
  | .mmc3 m => m.irqPending
  | _ => false

/-- The 1 KiB bank of nametable `table` (R576). -/
def ntBank (mi : Mirroring) (table : Nat) : Nat :=
  match mi with
  | .horizontal => table / 2
  | .vertical => table % 2
  | .singleLow => 0
  | .singleHigh => 1
  | .fourScreen => table

/-- `NtIndex` (R576): the place in nametable RAM of a PPU address in $2000-$3EFF. -/
def ntIndex (mi : Mirroring) (a : BitVec 14) : Nat :=
  let n := a.toNat % 0x1000
  1024 * ntBank mi (n / 0x400) + n % 0x400

/-- MMC1 at power-on (R590). -/
def Mmc1.powerOn : Mmc1 := { shift := 0x10, control := 0x0C, chr0 := 0, chr1 := 0, prg := 0, lastWrite := none }

/-- MMC3 at power-on (R605). -/
def Mmc3.powerOn : Mmc3 :=
  { select := 0, r := Vector.replicate 8 0, mirrorBit := false, ramProtect := 0, irqLatch := 0, irqCounter := 0
    irqReload := false, irqEnabled := false, irqPending := false, a12 := false, a12LowAt := 0 }

end Sys2Proof.Machine
end

