-- ==== Sys2Proof/Machine/PpuUnit.lean ====
section
/-! DEFINITION. The picture unit: its bus, its register entry points and its dot state machine.
62_ppu.md R420 to R472, 20_memory.md R93 to R96. `now` is the number of the bus cycle, `n` the draw counter. -/

namespace Sys2Proof.Machine

/-! ## Derived signals (R425) -/

/-- The NMI line: VBlank flag and PPUCTRL bit 7. -/
def Ppu.nmiOutput (p : Ppu) : Bool := p.vblank && p.ctrl.getLsbD 7

/-- Background or sprites shown. -/
def Ppu.renderingEnabled (p : Ppu) : Bool := p.mask.getLsbD 3 || p.mask.getLsbD 4

/-- Scanlines 0 to 239. -/
def Ppu.visibleLine (p : Ppu) : Bool := decide (p.scanline ≤ 239)

/-- Rendering on a visible or the pre-render line. -/
def Ppu.renderingActive (p : Ppu) : Bool := p.renderingEnabled && (p.visibleLine || p.scanline == 261)

/-- `h` of R462: sprite height by PPUCTRL bit 5. -/
def Ppu.spriteHeight (p : Ppu) : Nat := if p.ctrl.getLsbD 5 then 16 else 8

/-- The dot at which `FrameComplete` is signalled (R470); it changes no state. -/
def Ppu.frameCompletes (p : Ppu) : Bool := p.scanline == 240 && p.dot == 0

/-! ## The picture unit's bus (20_memory.md R93 to R95) -/

/-- The palette entry that the low five address bits select: $10, $14, $18, $1C are $00, $04, $08, $0C (R95). -/
def paletteIndex (i : BitVec 5) : BitVec 5 := if field i 0 2 = 0 then setField i 4 (0#1) else i

/-- Palette entry `i` with its mirroring (R95). -/
def Ppu.paletteRead (p : Ppu) (i : BitVec 5) : BitVec 6 :=
  p.palette[(paletteIndex i).toNat]'(paletteIndex i).isLt

/-- Store a palette entry (R95). -/
def Ppu.paletteWrite (p : Ppu) (i : BitVec 5) (v : BitVec 6) : Ppu :=
  { p with palette := p.palette.set (paletteIndex i).toNat v (paletteIndex i).isLt }

/-- The byte at a PPU address, with no effect (R93; the source's `ppuPeek`, R94). -/
def Ppu.peek (p : Ppu) (c : Cart) (a : BitVec 14) : Byte :=
  if a.toNat < 0x2000 then c.chrRead a.toNat
  else if a.toNat < 0x3F00 then p.ntRam.read (ntIndex c.mirroring a)
  else (p.paletteRead (field a 0 5)).setWidth 8

/-- `PpuRead` (R94): drive the address, which the mapper observes, and return the byte. -/
def Ppu.busRead (now : Nat) (a : BitVec 14) (p : Ppu) (c : Cart) : Byte × Cart :=
  (p.peek c a, c.setPpuAddress now a)

/-- `PpuWrite` (R94): drive the address and store by the map of R93; CHR ROM ignores it. -/
def Ppu.busWrite (now : Nat) (a : BitVec 14) (d : Byte) (p : Ppu) (c : Cart) : Ppu × Cart :=
  let driven := c.setPpuAddress now a
  if a.toNat < 0x2000 then (p, driven.chrWrite a.toNat d)
  else if a.toNat < 0x3F00 then ({ p with ntRam := p.ntRam.write (ntIndex c.mirroring a) d }, driven)
  else (p.paletteWrite (field a 0 5) (field d 0 6), driven)

/-! ## Scroll operations (R457 to R460) -/

/-- Coarse X increment with horizontal nametable wrap (R457). -/
def incX (v : BitVec 15) : BitVec 15 :=
  if field v 0 5 = 31 then setField (v ^^^ 0x0400#15) 0 (0#5) else setField v 0 (field v 0 5 + 1)

/-- Fine and coarse Y increment with vertical nametable wrap (R458). -/
def incY (v : BitVec 15) : BitVec 15 :=
  if field v 12 3 ≠ 7 then setField v 12 (field v 12 3 + 1)
  else
    let v0 := setField v 12 (0#3)
    let y := field v 5 5
    if y = 29 then setField (v0 ^^^ 0x0800#15) 5 (0#5)
    else if y = 31 then setField v0 5 (0#5)
    else setField v0 5 (y + 1)

/-- Horizontal bits from `t` (R459). -/
def copyX (t v : BitVec 15) : BitVec 15 := setField (setField v 10 (field t 10 1)) 0 (field t 0 5)

/-- Vertical bits from `t` (R460). -/
def copyY (t v : BitVec 15) : BitVec 15 := setField (setField v 11 (field t 11 4)) 5 (field t 5 5)

/-! ## Register entry points (R428 to R440) -/

/-- Writes to $2000, $2001, $2005 and $2006 are ignored before this bus cycle (R428). -/
def warmUpCycles : Nat := 29658

/-- `writeCtrl`, $2000 (R429). -/
def Ppu.writeCtrl (now : Nat) (d : Byte) (p : Ppu) : Ppu :=
  if now < warmUpCycles then p else { p with ctrl := d, t := setField p.t 10 (field d 0 2) }

/-- `writeMask`, $2001 (R431). -/
def Ppu.writeMask (now : Nat) (d : Byte) (p : Ppu) : Ppu :=
  if now < warmUpCycles then p else { p with mask := d }

/-- Whether the next dot is the one that sets VBlank: the race of R430. -/
def Ppu.vblankRace (p : Ppu) : Bool := p.scanline == 241 && p.dot == 1

/-- The value of a $2002 read, `drawn` in its open-bus bits 4:0 (R430). -/
def Ppu.statusValue (p : Ppu) (drawn : Byte) : Byte :=
  overlay 0xE0#8 (bit (p.vblank && !p.vblankRace) ++ bit p.spr0Hit ++ bit p.sprOverflow ++ 0#5) drawn

/-- `readStatus`, $2002: its effect (R430). -/
def Ppu.readStatus (p : Ppu) : Ppu :=
  { p with suppressVblank := p.suppressVblank || p.vblankRace, vblank := false, w := false }

/-- `writeOAMAddr`, $2003 (R432). -/
def Ppu.writeOamAddr (d : Byte) (p : Ppu) : Ppu := { p with oamAddr := d }

/-- `readOAMData`, $2004 (R433): $FF while secondary OAM is cleared, else the byte at OAMADDR. -/
def Ppu.oamDataValue (p : Ppu) : Byte :=
  if p.renderingActive ∧ 1 ≤ p.dot ∧ p.dot ≤ 64 then 0xFF#8 else p.oam.read p.oamAddr.toNat

/-- The byte kept when `d` is stored in OAM byte `i`: attribute bits 4:2 do not exist (R423). -/
def oamKeep (i d : Byte) : Byte := if field i 0 2 = 2 then d &&& 0xE3#8 else d

/-- `writeOAMData`, $2004 (R434). -/
def Ppu.writeOamData (d : Byte) (p : Ppu) : Ppu :=
  if p.renderingActive then { p with oamAddr := p.oamAddr + 4 }
  else { p with oam := p.oam.write p.oamAddr.toNat (oamKeep p.oamAddr d), oamAddr := p.oamAddr + 1 }

/-- `writeScroll`, $2005 (R436). -/
def Ppu.writeScroll (now : Nat) (d : Byte) (p : Ppu) : Ppu :=
  if now < warmUpCycles then p
  else if p.w then { p with t := setField (setField p.t 12 (field d 0 3)) 5 (field d 3 5), w := false }
  else { p with t := setField p.t 0 (field d 3 5), fineX := field d 0 3, w := true }

/-- `IncrementV` (R440). -/
def Ppu.incrementV (now : Nat) (p : Ppu) (c : Cart) : Ppu × Cart :=
  if p.renderingActive then ({ p with v := incY (incX p.v) }, c)
  else
    let v := p.v + (if p.ctrl.getLsbD 2 then 32 else 1)
    ({ p with v := v }, c.setPpuAddress now (v.setWidth 14))

/-- The value of a $2007 read, `drawn` in the open-bus bits 7:6 of a palette read (R437). -/
def Ppu.dataValue (p : Ppu) (drawn : Byte) : Byte :=
  let a : BitVec 14 := p.v.setWidth 14
  if a.toNat < 0x3F00 then p.readBuffer
  else overlay 0x3F#8 ((p.paletteRead (field a 0 5)).setWidth 8) drawn

/-- `readData`, $2007: its effect (R437). -/
def Ppu.readData (now : Nat) (p : Ppu) (c : Cart) : Ppu × Cart :=
  let a : BitVec 14 := p.v.setWidth 14
  let r := p.busRead now (if a.toNat < 0x3F00 then a else a &&& 0x2FFF#14) c
  Ppu.incrementV now { p with readBuffer := r.1 } r.2

/-- `writeAddr`, $2006 (R438). -/
def Ppu.writeAddr (now : Nat) (d : Byte) (p : Ppu) (c : Cart) : Ppu × Cart :=
  if now < warmUpCycles then (p, c)
  else if p.w then
    let t := setField p.t 0 d
    ({ p with t := t, v := t, w := false }, if p.renderingActive then c else c.setPpuAddress now (t.setWidth 14))
  else ({ p with t := setField (setField p.t 8 (field d 0 6)) 14 (0#1), w := true }, c)

/-- `writeData`, $2007 (R439). DEDUCED (unsafe, log entry 18): a write to the palette drives its address as every other
$2007 access does (R471, 92_eei_decisions.md D31), though the palette line of R439 names no `PpuWrite`. -/
def Ppu.writeData (now : Nat) (d : Byte) (p : Ppu) (c : Cart) : Ppu × Cart :=
  let r := p.busWrite now (p.v.setWidth 14) d c
  Ppu.incrementV now r.1 r.2

/-! ## Background pipeline (R454 to R456) -/

/-- `ShiftBg` (R456). -/
def BgPipe.shift (b : BgPipe) : BgPipe :=
  { b with bgLo := b.bgLo <<< 1, bgHi := b.bgHi <<< 1, atLo := b.atLo <<< 1, atHi := b.atHi <<< 1 }

/-- `ReloadBg` (R456). -/
def BgPipe.reload (b : BgPipe) : BgPipe :=
  { b with
    bgLo := setField b.bgLo 0 b.ptLo
    bgHi := setField b.bgHi 0 b.ptHi
    atLo := setField b.atLo 0 (if b.atBits.getLsbD 0 then 0xFF#8 else 0#8)
    atHi := setField b.atHi 0 (if b.atBits.getLsbD 1 then 0xFF#8 else 0#8) }

/-- The nametable address of `v` (R455). -/
def ntAddr (v : BitVec 15) : BitVec 14 := 0x2000#14 ||| (v &&& 0x0FFF#15).setWidth 14

/-- The attribute address of `v` (R455). -/
def attrAddr (v : BitVec 15) : BitVec 14 :=
  0x23C0#14 ||| ((v &&& 0x0C00#15) ||| ((v >>> 4) &&& 0x38#15) ||| ((v >>> 2) &&& 0x07#15)).setWidth 14

/-- The two attribute bits of the tile at `v` in the attribute byte `a` (R455). -/
def attrBits (v : BitVec 15) (a : Byte) : BitVec 2 :=
  field (a >>> (((v >>> 4) &&& 4#15) ||| (v &&& 2#15)).toNat) 0 2

/-- The address of the low pattern byte of the tile being fetched (R455). -/
def Ppu.bgPatternAddr (p : Ppu) : BitVec 14 :=
  BitVec.ofNat 14 ((if p.ctrl.getLsbD 4 then 0x1000 else 0) + 16 * p.bg.ntByte.toNat + (field p.v 12 3).toNat)

/-- `BgFetch(ph)` (R455). -/
def Ppu.bgFetch (now ph : Nat) (p : Ppu) (c : Cart) : Ppu × Cart :=
  match ph with
  | 1 =>
    let r := p.busRead now (ntAddr p.v) c
    ({ p with bg := { p.bg with ntByte := r.1 } }, r.2)
  | 3 =>
    let r := p.busRead now (attrAddr p.v) c
    ({ p with bg := { p.bg with atBits := attrBits p.v r.1 } }, r.2)
  | 5 =>
    let r := p.busRead now p.bgPatternAddr c
    ({ p with bg := { p.bg with ptLo := r.1 } }, r.2)
  | 7 =>
    let r := p.busRead now (p.bgPatternAddr + 8) c
    ({ p with bg := { p.bg with ptHi := r.1 }.reload, v := incX p.v }, r.2)
  | _ => (p, c)

/-! ## Sprite evaluation (R461, R462) -/

/-- `InRange(y)` on the line being processed (R462). -/
def Ppu.spriteInRange (p : Ppu) (y : Byte) : Bool :=
  decide (y.toNat ≤ p.scanline) && decide (p.scanline - y.toNat < p.spriteHeight)

/-- `NextSprite` (R462). -/
def SpriteEval.next (e : SpriteEval) : SpriteEval := { e with n := e.n + 1, done := e.n + 1 == 64 }

/-- `EvalStep` (R462). The third branch is the glitchy overflow search: `evM` advances with `evN`. -/
def Ppu.evalStep (p : Ppu) : Ppu :=
  let e := p.eval
  if e.done then p
  else if 0 < e.copy then
    let k := 4 - e.copy
    let e1 := { e with copy := e.copy - 1 }
    { p with
      secOam := p.secOam.setIfInBounds (4 * e.found + k) (p.oam.read (4 * e.n + k))
      eval := if e1.copy = 0 then { e1 with found := e1.found + 1 }.next else e1 }
  else if e.found < 8 then
    let y := p.oam.read (4 * e.n)
    { p with
      secOam := p.secOam.setIfInBounds (4 * e.found) y
      eval := if p.spriteInRange y then { e with copy := 3, zero := e.zero || e.n == 0 } else e.next }
  else if p.spriteInRange (p.oam.read (4 * e.n + e.m.toNat)) then
    { p with sprOverflow := true, eval := { e with done := true } }
  else { p with eval := { e with m := e.m + 1 }.next }

/-- The evaluation work of dot `p.dot` of a visible line (R461, R462). -/
def Ppu.spriteEvalDot (p : Ppu) : Ppu :=
  if 1 ≤ p.dot ∧ p.dot ≤ 64 then
    if p.dot % 2 = 0 then { p with secOam := p.secOam.setIfInBounds (p.dot / 2 - 1) 0xFF#8 } else p
  else if 65 ≤ p.dot ∧ p.dot ≤ 256 ∧ p.dot % 2 = 1 then
    (if p.dot = 65 then { p with eval := SpriteEval.zero0 } else p).evalStep
  else p

/-! ## Sprite fetch and output (R463 to R465) -/

/-- `SprAddr(tile, row)` (R464). -/
def Ppu.spriteAddr (p : Ppu) (tile row : Byte) : BitVec 14 :=
  if p.ctrl.getLsbD 5 then
    let bank := if tile.getLsbD 0 then 0x1000 else 0
    let t := (tile &&& 0xFE#8).toNat
    if 8 ≤ row.toNat then BitVec.ofNat 14 (bank + 16 * (t + 1) + (row.toNat - 8))
    else BitVec.ofNat 14 (bank + 16 * t + row.toNat)
  else BitVec.ofNat 14 ((if p.ctrl.getLsbD 3 then 0x1000 else 0) + 16 * tile.toNat + row.toNat)

/-- `row` of R463 for a sprite whose top byte is `y`, flipped vertically if `flip`.
DESIGN CHOICE (safe, log entry 8): a free value where the formula leaves the naturals. -/
def Ppu.spriteRow (n now : Nat) (p : Ppu) (y : Byte) (flip : Bool) : Byte :=
  if y.toNat ≤ p.scanline then
    let row := p.scanline - y.toNat
    if flip then
      if row < p.spriteHeight then BitVec.ofNat 8 (p.spriteHeight - 1 - row) else Config.spriteRow n now p.dot
    else BitVec.ofNat 8 row
  else Config.spriteRow n now p.dot

/-- Phase 0 of slot `i`: the latches of R463. -/
def Ppu.spriteLatch (n now i : Nat) (p : Ppu) : SpriteFetch :=
  let y := p.secOam[4 * i]?.getD 0xFF#8
  let attr := p.secOam[4 * i + 2]?.getD 0xFF#8
  let empty := p.scanline == 261 || decide (p.eval.found ≤ i)
  { tile := if empty then 0xFF#8 else p.secOam[4 * i + 1]?.getD 0xFF#8
    attr := attr
    xpos := p.secOam[4 * i + 3]?.getD 0xFF#8
    row := if empty then 0#8 else p.spriteRow n now y (attr.getLsbD 7)
    empty := empty
    lo := p.fetch.lo }

/-- A fetched pattern byte as it enters the slot: 0 for an empty slot, reversed when flipped horizontally (R463). -/
def SpriteFetch.pattern (f : SpriteFetch) (b : Byte) : Byte :=
  let v := if f.empty then 0#8 else b
  if f.attr.getLsbD 6 then reverse8 v else v

/-- Phase 7 of slot `i`: load the output slot, and after slot 7 the counts of the next line (R463). -/
def Ppu.loadSlot (i : Nat) (hi : Byte) (p : Ppu) : Ppu :=
  let f := p.fetch
  let p1 := { p with
    slots := p.slots.setIfInBounds i { lo := f.pattern f.lo, hi := f.pattern hi, attr := f.attr, x := f.xpos } }
  if i = 7 then
    { p1 with
      sprCount := if p.scanline = 261 then 0 else p.eval.found
      slot0IsZero := p.eval.zero && p.scanline != 261 }
  else p1

/-- `SpriteFetchDot` (R463), dots 257 to 320. -/
def Ppu.spriteFetchDot (n now : Nat) (p : Ppu) (c : Cart) : Ppu × Cart :=
  let i := (p.dot - 257) / 8
  match (p.dot - 257) % 8 with
  | 0 => ({ p with fetch := p.spriteLatch n now i }, c)
  | 1 => (p, c.setPpuAddress now (ntAddr p.v))
  | 3 => (p, c.setPpuAddress now (ntAddr p.v))
  | 5 =>
    let r := p.busRead now (p.spriteAddr p.fetch.tile p.fetch.row) c
    ({ p with fetch := { p.fetch with lo := r.1 } }, r.2)
  | 7 =>
    let r := p.busRead now (p.spriteAddr p.fetch.tile p.fetch.row + 8) c
    (p.loadSlot i r.1, r.2)
  | _ => (p, c)

/-- A slot's step at one visible dot: count down to its column, then shift (R465). -/
def SpriteSlot.advance (s : SpriteSlot) : SpriteSlot :=
  if s.x ≠ 0 then { s with x := s.x - 1 } else { s with lo := s.lo <<< 1, hi := s.hi <<< 1 }

/-- Sprite output units: the slots in use step, the others hold (R465). -/
def Ppu.shiftSprites (p : Ppu) : Ppu :=
  { p with slots := p.slots.mapIdx fun i s => if i < p.sprCount then s.advance else s }

/-- A slot's current pixel (R465). -/
def SpriteSlot.pixel (s : SpriteSlot) : BitVec 2 :=
  if s.x = 0 then bit (s.hi.getLsbD 7) ++ bit (s.lo.getLsbD 7) else 0

/-! ## Compositing (R466, R467) -/

/-- The first slot with a pixel that is not 0, with its index counted from `i` (R466). -/
def firstOpaque : Nat → List SpriteSlot → Option (Nat × SpriteSlot)
  | _, [] => none
  | i, s :: ss => if s.pixel ≠ 0 then some (i, s) else firstOpaque (i + 1) ss

/-- The background pixel and its palette at column `px`, 0 where not shown (R466). -/
def Ppu.bgPixel (p : Ppu) (px : Nat) : BitVec 2 × BitVec 2 :=
  if p.mask.getLsbD 3 && (decide (8 ≤ px) || p.mask.getLsbD 1) then
    let b := 15 - p.fineX.toNat
    (bit (p.bg.bgHi.getLsbD b) ++ bit (p.bg.bgLo.getLsbD b), bit (p.bg.atHi.getLsbD b) ++ bit (p.bg.atLo.getLsbD b))
  else (0, 0)

/-- The winning sprite slot at column `px`, if sprites are shown there (R466). -/
def Ppu.spritePixel (p : Ppu) (px : Nat) : Option (Nat × SpriteSlot) :=
  if p.mask.getLsbD 4 && (decide (8 ≤ px) || p.mask.getLsbD 2) then firstOpaque 0 (p.slots.toList.take p.sprCount)
  else none

/-- The palette entry of a background pixel (R466). -/
def bgEntry (pal pixel : BitVec 2) : BitVec 5 := 0#1 ++ pal ++ pixel

/-- The palette entry of a sprite pixel (R466). -/
def spriteEntry (s : SpriteSlot) : BitVec 5 := 1#1 ++ field s.attr 0 2 ++ s.pixel

/-- The palette entry shown at column `px` (R466): the backdrop when rendering is disabled or nothing is opaque. -/
def Ppu.pixelEntry (p : Ppu) (px : Nat) : BitVec 5 :=
  let bg := p.bgPixel px
  if !p.renderingEnabled then 0
  else
    match p.spritePixel px with
    | none => if bg.1 = 0 then 0 else bgEntry bg.2 bg.1
    | some (_, s) => if bg.1 = 0 ∨ s.attr.getLsbD 5 = false then spriteEntry s else bgEntry bg.2 bg.1

/-- Whether the pixel at column `px` sets the sprite-zero flag (R466, R467). -/
def Ppu.spriteZeroHits (p : Ppu) (px : Nat) : Bool :=
  match p.spritePixel px with
  | none => false
  | some (i, _) => i == 0 && p.slot0IsZero && (p.bgPixel px).1 != 0 && decide (1 < px + 1) && px + 1 != 256

/-- The greyscale mask of PPUMASK bit 0 (R431, R466). -/
def Ppu.greyMask (p : Ppu) : BitVec 6 := if p.mask.getLsbD 0 then 0x30 else 0x3F

/-- `OutputPixel(sl, px)` (R466). -/
def Ppu.outputPixel (px : Nat) (p : Ppu) : Ppu :=
  { p with
    spr0Hit := p.spr0Hit || p.spriteZeroHits px
    frame := p.frame.write (256 * p.scanline + px) ((p.paletteRead (p.pixelEntry px) &&& p.greyMask).setWidth 8) }

/-! ## The dot state machine (R450 to R454) -/

/-- The background work of one dot (R454). -/
def Ppu.renderBg (now : Nat) (p : Ppu) (c : Cart) : Ppu × Cart :=
  if (1 ≤ p.dot ∧ p.dot ≤ 256) ∨ (321 ≤ p.dot ∧ p.dot ≤ 336) then
    Ppu.bgFetch now ((p.dot - 1) % 8) { p with bg := p.bg.shift } c
  else (p, c)

/-- The scroll work of one dot (R454). -/
def Ppu.renderScroll (p : Ppu) : Ppu :=
  if p.dot = 256 then { p with v := incY p.v }
  else if p.dot = 257 then { p with v := copyX p.t p.v }
  else if p.scanline = 261 ∧ 280 ≤ p.dot ∧ p.dot ≤ 304 then { p with v := copyY p.t p.v }
  else p

/-- `RenderDot` (R454). -/
def Ppu.renderDot (n now : Nat) (p : Ppu) (c : Cart) : Ppu × Cart :=
  let r := p.renderBg now c
  let p1 := r.1.renderScroll
  let c1 := if p.dot = 337 ∨ p.dot = 339 then r.2.setPpuAddress now (ntAddr p1.v) else r.2
  let p2 := if p.visibleLine then p1.spriteEvalDot else p1
  if 257 ≤ p.dot ∧ p.dot ≤ 320 then Ppu.spriteFetchDot n now { p2 with oamAddr := 0 } c1 else (p2, c1)

/-- VBlank and the sprite flags at (241, 1) and (261, 1) (R450, R452, R453). -/
def Ppu.flagDot (p : Ppu) : Ppu :=
  if p.scanline = 241 ∧ p.dot = 1 then { p with vblank := p.vblank || !p.suppressVblank, suppressVblank := false }
  else if p.scanline = 261 ∧ p.dot = 1 then { p with vblank := false, spr0Hit := false, sprOverflow := false }
  else p

/-- `Advance` (R451), with the dot the odd frame skips. -/
def Ppu.advance (p : Ppu) : Ppu :=
  if p.scanline = 261 ∧ p.dot = 339 ∧ p.oddFrame ∧ p.renderingEnabled then
    { p with dot := 0, scanline := 0, oddFrame := !p.oddFrame }
  else if p.dot + 1 = 341 then
    if p.scanline + 1 = 262 then { p with dot := 0, scanline := 0, oddFrame := !p.oddFrame }
    else { p with dot := 0, scanline := p.scanline + 1 }
  else { p with dot := p.dot + 1 }

/-- The pixel work of one dot: output, then the sprite output units (R450, R465, R466, R468). -/
def Ppu.pixelDot (p : Ppu) : Ppu :=
  if p.visibleLine ∧ 1 ≤ p.dot ∧ p.dot ≤ 256 then
    let p1 := p.outputPixel (p.dot - 1)
    if p.renderingEnabled then p1.shiftSprites else p1
  else p

/-- `ppu.Tick()` (R450). -/
def Ppu.tick (n now : Nat) (p : Ppu) (c : Cart) : Ppu × Cart :=
  let p1 := p.pixelDot
  let r := if p.renderingActive then p1.renderDot n now c else (p1, c)
  (r.1.flagDot.advance, r.2)

end Sys2Proof.Machine
end

