-- ==== Sys2Proof/Machine/Ops.lean ====
section
/-! DEFINITION. The named operations over the whole machine: registers, the address map, the bus cycle, both DMA
engines, the stack, taking an interrupt and returning from one, the fatal halt.
20_memory.md R70 to R88, 60_exceptions.md R340 to R352, 61_dma.md R380 to R390. -/

namespace Sys2Proof.Machine

/-! ## Registers -/

/-- `A <- v`. -/
def State.setA (v : Byte) (s : State) : State := { s with a := v }

/-- `X <- v`. -/
def State.setX (v : Byte) (s : State) : State := { s with x := v }

/-- `Y <- v`. -/
def State.setY (v : Byte) (s : State) : State := { s with y := v }

/-- `S <- v`. -/
def State.setS (v : Byte) (s : State) : State := { s with s := v }

/-- `PC <- v`. -/
def State.setPc (v : Word) (s : State) : State := { s with pc := v }

/-- Replace the stored flags. -/
def State.setP (f : Flags) (s : State) : State := { s with p := f }

/-- `setNZ(v)` on the machine. -/
def State.setNZ (v : Byte) (s : State) : State := s.setP (s.p.setNZ v)

/-! ## Device ticks -/

/-- `apu.Tick()` with the DMC request latch of 63_apu.md R540 (R508). -/
def tickApu (s : State) : State :=
  let u := s.apu.tick
  { s with apu := u, dmcRequest := s.dmcRequest || u.dmc.wantsByte }

/-- `ppu.Tick()` (62_ppu.md R450). -/
def tickPpu (s : State) : State :=
  let r := s.ppu.tick s.drawCount s.cycles s.cart
  { s with ppu := r.1, cart := r.2 }

/-- `k` dots. -/
def tickPpus : Nat → State → State
  | 0, s => s
  | k + 1, s => tickPpus k (tickPpu s)

/-! ## The address map: reads (20_memory.md R77 to R84, R86, R87) -/

/-- The byte a draw gives next (00_scope.md R11). -/
def drawn (s : State) : Byte := Config.draw s.drawCount

/-- One draw is used up. -/
def bumpDraw (s : State) : State := { s with drawCount := s.drawCount + 1 }

/-- The value of a read of PPU register `r` (R79, 62_ppu.md R428). -/
def ppuRegValue (r : Nat) (s : State) : Byte :=
  match r with
  | 2 => s.ppu.statusValue (drawn s)
  | 4 => s.ppu.oamDataValue
  | 7 => s.ppu.dataValue (drawn s)
  | _ => drawn s

/-- The effect of a read of PPU register `r` (R79, R83). -/
def ppuRegEffect (r : Nat) (s : State) : State :=
  match r with
  | 2 => bumpDraw { s with ppu := s.ppu.readStatus }
  | 4 => s
  | 7 =>
    let q := s.ppu.readData s.cycles s.cart
    bumpDraw { s with ppu := q.1, cart := q.2 }
  | _ => bumpDraw s

/-- The port's shift register as a read finds it: loaded again while the strobe is set (R84). -/
def padNow (p : Port) (pad : Pad) (s : State) : Pad :=
  if s.strobe then { shift := Config.buttons p s.drawCount, count := 0 } else pad

/-- The data bit of a port read (R84). -/
def padBit (pad : Pad) : Bool := if pad.count < 8 then pad.shift.getLsbD 0 else true

/-- The value of a port read: bits 7:5 open bus, bits 4:1 zero, bit 0 data (R84). -/
def padValue (p : Port) (pad : Pad) (s : State) : Byte :=
  overlay 0x1F#8 ((bit (padBit (padNow p pad s))).setWidth 8) (drawn s)

/-- The port after a read: one more bit shifted out, unless the strobe is set or all are out (R84). -/
def padShifted (p : Port) (pad : Pad) (s : State) : Pad :=
  if s.strobe then padNow p pad s
  else if pad.count < 8 then { shift := pad.shift >>> 1, count := pad.count + 1 }
  else pad

/-- The value `DeviceRead(addr)` returns, with no effect: this is `Peek` (R77, R87). -/
def deviceValue (addr : Word) (s : State) : Byte :=
  if addr.toNat < 0x2000 then s.ram.read (addr.toNat % 0x800)
  else if addr.toNat < 0x4000 then ppuRegValue (addr.toNat % 8) s
  else if addr.toNat = 0x4015 then s.apu.statusValue (drawn s)
  else if addr.toNat = 0x4016 then padValue .one s.pad1 s
  else if addr.toNat = 0x4017 then padValue .two s.pad2 s
  else if addr.toNat < 0x4020 then drawn s
  else (s.cart.cpuRead addr).getD (drawn s)

/-- The effect of `DeviceRead(addr)` (R77, R83): none for RAM and mapped cartridge addresses. -/
def deviceEffect (addr : Word) (s : State) : State :=
  if addr.toNat < 0x2000 then s
  else if addr.toNat < 0x4000 then ppuRegEffect (addr.toNat % 8) s
  else if addr.toNat = 0x4015 then bumpDraw { s with apu := s.apu.readStatus }
  else if addr.toNat = 0x4016 then bumpDraw { s with pad1 := padShifted .one s.pad1 s }
  else if addr.toNat = 0x4017 then bumpDraw { s with pad2 := padShifted .two s.pad2 s }
  else if addr.toNat < 0x4020 then bumpDraw s
  else if (s.cart.cpuRead addr).isSome then s
  else bumpDraw s

/-- `Peek(addr)` (R87): the diagnostic read; it gives no state back, so it changes none. -/
def peek (addr : Word) (s : State) : Byte := deviceValue addr s

/-! ## The address map: writes (20_memory.md R77 to R85) -/

/-- A write of `v` to PPU register `r` (R79, 62_ppu.md R428); a write to $2002 has no effect. -/
def ppuRegWrite (r : Nat) (v : Byte) (s : State) : State :=
  match r with
  | 0 => { s with ppu := s.ppu.writeCtrl s.cycles v }
  | 1 => { s with ppu := s.ppu.writeMask s.cycles v }
  | 3 => { s with ppu := s.ppu.writeOamAddr v }
  | 4 => { s with ppu := s.ppu.writeOamData v }
  | 5 => { s with ppu := s.ppu.writeScroll s.cycles v }
  | 6 =>
    let q := s.ppu.writeAddr s.cycles v s.cart
    { s with ppu := q.1, cart := q.2 }
  | 7 =>
    let q := s.ppu.writeData s.cycles v s.cart
    { s with ppu := q.1, cart := q.2 }
  | _ => s

/-- $4015 write with its request and delay latches (63_apu.md R540, R547). -/
def writeApuEnables (v : Byte) (s : State) : State :=
  let u := s.apu.writeEnables v
  { s with
    apu := u
    dmcRequest := s.dmcRequest || u.dmc.wantsByte
    dmaDelay := if s.apu.dmc.starts (v.getLsbD 4) && s.apu.dmc.bufferEmpty then 2 else s.dmaDelay }

/-- $4016 write: the strobe, which loads both ports while it is set (R84). -/
def writeStrobe (v : Byte) (s : State) : State :=
  if v.getLsbD 0 then
    bumpDraw { s with
      strobe := true
      pad1 := { shift := Config.buttons .one s.drawCount, count := 0 }
      pad2 := { shift := Config.buttons .two s.drawCount, count := 0 } }
  else { s with strobe := false }

/-- `DeviceWrite(addr, v)` (R77). The DMA that a write to $4014 starts follows the bus cycle (`busWrite`). -/
def deviceWrite (addr : Word) (v : Byte) (s : State) : State :=
  if addr.toNat < 0x2000 then { s with ram := s.ram.write (addr.toNat % 0x800) v }
  else if addr.toNat < 0x4000 then ppuRegWrite (addr.toNat % 8) v s
  else if addr.toNat < 0x4014 then { s with apu := s.apu.writeChannel (addr.toNat - 0x4000) v }
  else if addr.toNat = 0x4015 then writeApuEnables v s
  else if addr.toNat = 0x4016 then writeStrobe v s
  else if addr.toNat = 0x4017 then { s with apu := s.apu.writeFrameCounter s.cycles v }
  else if addr.toNat < 0x4020 then s
  else { s with cart := s.cart.cpuWrite s.cycles addr v }

/-! ## Interrupt capture and poll (60_exceptions.md R341 to R343) -/

/-- `CaptureInterrupts` (R341). -/
def captureInterrupts (s : State) : State :=
  { s with nmiPending := s.nmiPending || s.nmiRaised, nmiRaised := false, irqPending := s.irqRaised }

/-- The combined IRQ line: frame, DMC and mapper interrupts (R343, 90_conflicts.md C2). -/
def irqLine (s : State) : Bool := s.apu.irqLine || s.cart.irqLine

/-- `PollNmi` and `PollIrq` (R342, R343). -/
def pollInterrupts (s : State) : State :=
  { s with
    nmiRaised := s.nmiRaised || (s.ppu.nmiOutput && !s.nmiLine)
    nmiLine := s.ppu.nmiOutput
    irqRaised := irqLine s && !s.p.i }

/-! ## The bus cycle (20_memory.md R75) and DMA (61_dma.md) -/

/-- Step 1: count the cycle and tick the audio unit. -/
def cycleStart (s : State) : State := tickApu { s with cycles := s.cycles + 1 }

/-- Step 2 where a countdown is active (R386, R388). -/
def countDown (s : State) : State := { s with dmaDelay := s.dmaDelay - 1 }

/-- Steps 3 to 6 of a read; `suppress` skips the capture (43_control_flags.md R250). -/
def finishRead (suppress : Bool) (addr : Word) (s : State) : Byte × State :=
  let s1 := tickPpus s.params.readSplit.val (if suppress then s else captureInterrupts s)
  (deviceValue addr s1, pollInterrupts (tickPpus (3 - s.params.readSplit.val) (deviceEffect addr s1)))

/-- Steps 3 to 5 of a write. -/
def finishWrite (addr : Word) (v : Byte) (s : State) : State :=
  let s1 := tickPpus s.params.writeSplit.val (captureInterrupts s)
  pollInterrupts (tickPpus (3 - s.params.writeSplit.val) (deviceWrite addr v s1))

/-- A read bus cycle inside a DMC stall: step 2 is left out (`inDmcStall`, R75). -/
def stallRead (addr : Word) (s : State) : Byte × State := finishRead false addr (cycleStart s)

/-- `IdleCycle` (R387): a read bus cycle with no device access. -/
def idleCycle (s : State) : State := pollInterrupts (tickPpus 3 (captureInterrupts (cycleStart s)))

/-- A read bus cycle inside OAM DMA: step 2 only counts down (`inOamDma`, R75, R384). -/
def oamRead (addr : Word) (s : State) : Byte × State := finishRead false addr (countDown (cycleStart s))

/-- A write bus cycle, and one inside OAM DMA: step 2 only counts down (R75, R386). -/
def writeCycle (addr : Word) (v : Byte) (s : State) : State := finishWrite addr v (countDown (cycleStart s))

/-- `apu.DmcDeliver(v)` (63_apu.md R522).
DESIGN CHOICE (safe, log entry 7): `bytesLeft - 1` is a free value when `bytesLeft` is 0. -/
def dmcDeliver (v : Byte) (s : State) : State :=
  let d := s.apu.dmc
  let left := if d.bytesLeft = 0 then Config.dmcUnderflow s.drawCount else d.bytesLeft - 1
  { s with
    apu := { s.apu with dmc := d.deliver v left, dmcIrq := s.apu.dmcIrq || d.deliverRaises left }
    drawCount := if d.bytesLeft = 0 then s.drawCount + 1 else s.drawCount }

/-- The end of `DmcFetch`, after its read gave `r` (61_dma.md R387). -/
def dmcFetched (r : Byte × State) : State := dmcDeliver r.1 { r.2 with dmcRequest := false }

/-- One of the three dummy cycles of a stall at `addr` (61_dma.md R387). -/
def stallDummy (addr : Word) (s : State) : State :=
  if s.params.dmcReread then (stallRead addr s).2 else idleCycle s

/-- `DmcStall(addr)` (61_dma.md R387). -/
def dmcStall (addr : Word) (s : State) : State :=
  let s1 := stallDummy addr (stallDummy addr (stallDummy addr s))
  dmcFetched (stallRead s1.apu.dmc.curAddr s1)

/-- Step 2 of a CPU read cycle at `addr` (R75, 61_dma.md R386). -/
def serviceDmc (addr : Word) (s : State) : State :=
  if 0 < s.dmaDelay then countDown s else if s.dmcRequest then dmcStall addr s else s

/-- A CPU read bus cycle, its capture skipped if `suppress` (R75, 43_control_flags.md R250). -/
def busReadWith (suppress : Bool) (addr : Word) (s : State) : Byte × State :=
  finishRead suppress addr (serviceDmc addr (cycleStart s))

/-- `Read(addr)` (00_scope.md R10). -/
def busRead (addr : Word) (s : State) : Byte × State := busReadWith false addr s

/-- `DummyRead(addr)` (00_scope.md R10). -/
def dummyRead (addr : Word) (s : State) : State := (busRead addr s).2

/-- `ServiceDmcInOamDma` (61_dma.md R384), with `src` the address of the next get cycle. -/
def oamServiceDmc (src : Word) (s : State) : State :=
  if s.dmcRequest && s.dmaDelay == 0 then
    let s1 := (oamRead src s).2
    dmcFetched (oamRead s1.apu.dmc.curAddr s1)
  else s

/-- One byte of OAM DMA: DMC service, get cycle, put cycle (61_dma.md R380). -/
def oamTransfer (src : Word) (s : State) : State :=
  let r := oamRead src (oamServiceDmc src s)
  writeCycle 0x2004 r.1 r.2

/-- The transfers of bytes `i`, `i + 1`, … of `page`, `k` of them (61_dma.md R380). -/
def oamCopy (page : Byte) : Nat → Nat → State → State
  | 0, _, s => s
  | k + 1, i, s => oamCopy page k (i + 1) (oamTransfer (mk16 page (BitVec.ofNat 8 i)) s)

/-- `OamDma(page)` (61_dma.md R380): a halt cycle, an alignment cycle when the first cycle is odd, 256 transfers. -/
def oamDma (page : Byte) (s : State) : State :=
  let s1 := (oamRead s.pc s).2
  let s2 := if (s.cycles + 1) % 2 = 1 then (oamRead s1.pc s1).2 else s1
  oamCopy page 256 0 s2

/-- `Write(addr, v)` (00_scope.md R10): the bus cycle, then the OAM DMA that a write to $4014 starts (61_dma.md R380). -/
def busWrite (addr : Word) (v : Byte) (s : State) : State :=
  let s1 := writeCycle addr v s
  if addr.toNat = 0x4014 then oamDma v s1 else s1

/-! ## Fetch and stack (40_addressing.md R140, R141, R153) -/

/-- `FetchOperand`, which is also the opcode fetch (R140, R141). -/
def fetchOperand (s : State) : Byte × State :=
  let r := busRead s.pc s
  (r.1, r.2.setPc (r.2.pc + 1))

/-- The stack address `$0100 | S` (10_state.md R33). -/
def stackAddr (s : State) : Word := mk16 1#8 s.s

/-- `Push(v)` (00_scope.md R10). -/
def push (v : Byte) (s : State) : State :=
  let s1 := busWrite (stackAddr s) v s
  s1.setS (s1.s - 1)

/-- `Pull()` (R153). -/
def pull (s : State) : Byte × State :=
  let s1 := s.setS (s.s + 1)
  busRead (stackAddr s1) s1

/-- `Peek_S()`: the stack-pointer dummy read (R153). -/
def dummyStackRead (s : State) : State := dummyRead (stackAddr s) s

/-! ## Taking an interrupt and returning from one -/

/-- `SelectVector(default)` (60_exceptions.md R347): a pending NMI takes over the vector. -/
def selectVector (fallback : Word) (s : State) : Word × State :=
  if s.nmiPending then (0xFFFA#16, { s with nmiPending := false }) else (fallback, s)

/-- The entry that NMI, IRQ and BRK share (60_exceptions.md R346, 43_control_flags.md R262): push PC and the status
with B = `b`, choose the vector, set I, load PC. -/
def enterHandler (b : Bool) (s : State) : State :=
  let s1 := push (hi8 s.pc) s
  let s2 := push (lo8 s1.pc) s1
  let s3 := push (s2.p.pushed b) s2
  let q := selectVector 0xFFFE#16 s3
  let s4 := q.2.setP { q.2.p with i := true }
  let lo := busRead q.1 s4
  let hi := busRead (q.1 + 1) lo.2
  hi.2.setPc (mk16 hi.1 lo.1)

/-- `InterruptSequence` (60_exceptions.md R346). -/
def interruptSequence (s : State) : State :=
  let s1 := dummyRead s.pc s
  enterHandler false (dummyRead s1.pc s1)

/-- The servicing at the start of a step (60_exceptions.md R340). -/
def serviceInterrupts (s : State) : State :=
  if s.noServiceNext then { s with noServiceNext := false }
  else if s.nmiPending || s.irqPending then interruptSequence s
  else s

/-- The pulls of `RTI` (43_control_flags.md R263, 60_exceptions.md R350): the status, then PC. -/
def returnFromInterrupt (s : State) : State :=
  let st := pull s
  let lo := pull (st.2.setP (Flags.ofByte st.1))
  let hi := pull lo.2
  hi.2.setPc (mk16 hi.1 lo.1)

/-- `Fatal(op)` (60_exceptions.md R352): record the opcode and its address, freeze everything else. -/
def raiseFatal (op : Byte) (s : State) : State := { s with runState := .fatal op (s.pc - 1) }

/-! ## The reset sequence (70_reset_and_hazards.md R630) -/

/-- One suppressed push of the reset sequence: a read at the stack address, then `S - 1`. -/
def resetPush (s : State) : State :=
  let s1 := dummyStackRead s
  s1.setS (s1.s - 1)

/-- `Reset()` (R630): seven bus cycles, nothing stored. -/
def resetSequence (s : State) : State :=
  let s1 := dummyRead s.pc s
  let s2 := dummyRead s1.pc s1
  let s3 := resetPush (resetPush (resetPush s2))
  let s4 := s3.setP { s3.p with i := true }
  let lo := busRead 0xFFFC s4
  let hi := busRead 0xFFFD lo.2
  hi.2.setPc (mk16 hi.1 lo.1)

end Sys2Proof.Machine
end

