-- ==== Sys2Proof/Machine/Operands.lean ====
section
/-! DEFINITION. Every addressing mode and access class. 40_addressing.md R140 to R159. The operand bytes `b`, or
`lo` and `hi`, are those the instruction carries: their fetch cycles (R140, R141) come before (`fetchInstr`). Each
effective-address operation performs the remaining cycles of its mode and answers the address with the state. -/

namespace Sys2Proof.Machine

/-- A page crossing: the addition carries out of the low byte (R150). -/
def crosses (lo i : Byte) : Bool := decide (255 < lo.toNat + i.toNat)

/-- `zp` (R142). -/
def eaZp (b : Byte) (s : State) : Word × State := (zext16 b, s)

/-- `zp,X` (R143): a dummy read at the unindexed address; the sum wraps within page zero. -/
def eaZpx (b : Byte) (s : State) : Word × State :=
  let s1 := dummyRead (zext16 b) s
  (zext16 (b + s1.x), s1)

/-- `zp,Y` (R144). -/
def eaZpy (b : Byte) (s : State) : Word × State :=
  let s1 := dummyRead (zext16 b) s
  (zext16 (b + s1.y), s1)

/-- `abs` (R145). -/
def eaAbs (lo hi : Byte) (s : State) : Word × State := (mk16 hi lo, s)

/-- The indexed address of R146 and R149 with its dummy read of the uncorrected address, taken on a page crossing or
whenever the class is not read. -/
def eaIndexed (cls : AccessClass) (lo hi i : Byte) (s : State) : Word × State :=
  (mk16 hi lo + zext16 i, if crosses lo i || cls != .read then dummyRead (mk16 hi (lo + i)) s else s)

/-- `abs,X` (R146). -/
def eaAbx (cls : AccessClass) (lo hi : Byte) (s : State) : Word × State := eaIndexed cls lo hi s.x s

/-- `abs,Y` (R146). -/
def eaAby (cls : AccessClass) (lo hi : Byte) (s : State) : Word × State := eaIndexed cls lo hi s.y s

/-- The pointer that `(zp,X)` reads: both of its bytes wrap within page zero (R148). -/
def pointerIzx (b : Byte) (s : State) : (Byte × Byte) × State :=
  let s1 := dummyRead (zext16 b) s
  let q := b + s1.x
  let lo := busRead (zext16 q) s1
  let hi := busRead (zext16 (q + 1)) lo.2
  ((lo.1, hi.1), hi.2)

/-- `(zp,X)` (R148). -/
def eaIzx (b : Byte) (s : State) : Word × State :=
  let r := pointerIzx b s
  (mk16 r.1.2 r.1.1, r.2)

/-- The pointer that `(zp),Y` reads; its second byte wraps within page zero (R149). -/
def pointerIzy (b : Byte) (s : State) : (Byte × Byte) × State :=
  let lo := busRead (zext16 b) s
  let hi := busRead (zext16 (b + 1)) lo.2
  ((lo.1, hi.1), hi.2)

/-- `(zp),Y` (R149). -/
def eaIzy (cls : AccessClass) (b : Byte) (s : State) : Word × State :=
  let r := pointerIzy b s
  eaIndexed cls r.1.1 r.1.2 r.2.y r.2

/-- The target of `JMP ($nnnn)` (R147): the pointer does not carry into its high byte. -/
def targetInd (lo hi : Byte) (s : State) : Word × State :=
  let tl := busRead (mk16 hi lo) s
  let th := busRead (mk16 hi (lo + 1)) tl.2
  (mk16 th.1 tl.1, th.2)

/-- The target of a relative branch (R151), from the `PC` that follows the operand. -/
def branchTarget (pc : Word) (off : Byte) : Word := pc + sext16 off

/-! ## Access classes (R154 to R156) -/

/-- What a meaning answers. -/
abbrev Result := Host.Outcome State Fault Refusal

/-- Implied and accumulator modes: the dummy read of the next byte, then the register operation (R140). -/
def implied (f : State → State) (s : State) : Result := .next (f (dummyRead s.pc s))

/-- Immediate mode: the operand is the fetched byte (R141, R154). -/
def immediate (f : Byte → State → State) (b : Byte) (s : State) : Result := .next (f b s)

/-- Read class (R154): the operand read is the last cycle. -/
def readClass (ea : State → Word × State) (f : Byte → State → State) (s : State) : Result :=
  let e := ea s
  let r := busRead e.1 e.2
  .next (f r.1 r.2)

/-- Write class (R155): the value is written, `ea` is never read. -/
def writeClass (ea : State → Word × State) (value : State → Byte) (s : State) : Result :=
  let e := ea s
  .next (busWrite e.1 (value e.2) e.2)

/-- Read-modify-write class (R156): read, write the old value, compute, write the result, then the second operation of
a combined opcode. -/
def rmwClass (ea : State → Word × State) (f : Byte → State → Byte × State) (after : Byte → State → State)
    (s : State) : Result :=
  let e := ea s
  let r := busRead e.1 e.2
  let m := f r.1 (busWrite e.1 r.1 r.2)
  .next (after m.1 (busWrite e.1 m.1 m.2))

/-- The store-high family (44_unofficial.md R306): `H` is `hi`, `reg` the value stored before its mask, which may set
`S` first (TAS). On a page crossing the high address byte is replaced by the stored value. -/
def storeHigh (lo hi i : Byte) (prep : State → State) (reg : State → Byte) (s : State) : Result :=
  let s1 := prep (dummyRead (mk16 hi (lo + i)) s)
  let value := reg s1 &&& (hi + 1)
  .next (busWrite (mk16 (if crosses lo i then value else hi) (lo + i)) value s1)

end Sys2Proof.Machine
end

