-- ==== Sys2Proof/Machine/LoadStore.lean ====
section
/-! DEFINITION. Load, store, transfer and stack instructions. 41_load_store_transfer.md R180 to R195. -/

namespace Sys2Proof.Machine

/-! ## Operations -/

/-- `A <- v; setNZ(A)` (R180). -/
def opLda (v : Byte) (s : State) : State := (s.setA v).setNZ v

/-- `X <- v; setNZ(X)` (R181). -/
def opLdx (v : Byte) (s : State) : State := (s.setX v).setNZ v

/-- `Y <- v; setNZ(Y)` (R182). -/
def opLdy (v : Byte) (s : State) : State := (s.setY v).setNZ v

/-- `X <- A` (R186). -/
def opTax (s : State) : State := opLdx s.a s

/-- `Y <- A` (R187). -/
def opTay (s : State) : State := opLdy s.a s

/-- `A <- X` (R188). -/
def opTxa (s : State) : State := opLda s.x s

/-- `A <- Y` (R189). -/
def opTya (s : State) : State := opLda s.y s

/-- `X <- S` (R190). -/
def opTsx (s : State) : State := opLdx s.s s

/-- `S <- X`, no flag (R191). -/
def opTxs (s : State) : State := s.setS s.x

/-- The cycles of `PHA` after the opcode (R192). -/
def runPha (s : State) : State :=
  let s1 := dummyRead s.pc s
  push s1.a s1

/-- The cycles of `PHP` after the opcode (R193): B is pushed as 1. -/
def runPhp (s : State) : State :=
  let s1 := dummyRead s.pc s
  push (s1.p.pushed true) s1

/-- The cycles of `PLA` after the opcode (R194). -/
def runPla (s : State) : State :=
  let r := pull (dummyStackRead (dummyRead s.pc s))
  opLda r.1 r.2

/-- The cycles of `PLP` after the opcode (R195): the flags change after the last cycle. -/
def runPlp (s : State) : State :=
  let r := pull (dummyStackRead (dummyRead s.pc s))
  r.2.setP (Flags.ofByte r.1)

/-! ## Meanings -/

/-- $A1 LDA izx: 41_load_store_transfer.md R180. -/
def execLdaIzx (b : Byte) (s : State) : Result := readClass (eaIzx b) opLda s

/-- $A5 LDA zp: 41_load_store_transfer.md R180. -/
def execLdaZp (b : Byte) (s : State) : Result := readClass (eaZp b) opLda s

/-- $A9 LDA imm: 41_load_store_transfer.md R180. -/
def execLdaImm (b : Byte) (s : State) : Result := immediate opLda b s

/-- $AD LDA abs: 41_load_store_transfer.md R180. -/
def execLdaAbs (lo hi : Byte) (s : State) : Result := readClass (eaAbs lo hi) opLda s

/-- $B1 LDA izy: 41_load_store_transfer.md R180. -/
def execLdaIzy (b : Byte) (s : State) : Result := readClass (eaIzy .read b) opLda s

/-- $B5 LDA zpx: 41_load_store_transfer.md R180. -/
def execLdaZpx (b : Byte) (s : State) : Result := readClass (eaZpx b) opLda s

/-- $B9 LDA aby: 41_load_store_transfer.md R180. -/
def execLdaAby (lo hi : Byte) (s : State) : Result := readClass (eaAby .read lo hi) opLda s

/-- $BD LDA abx: 41_load_store_transfer.md R180. -/
def execLdaAbx (lo hi : Byte) (s : State) : Result := readClass (eaAbx .read lo hi) opLda s

/-- $A2 LDX imm: 41_load_store_transfer.md R181. -/
def execLdxImm (b : Byte) (s : State) : Result := immediate opLdx b s

/-- $A6 LDX zp: 41_load_store_transfer.md R181. -/
def execLdxZp (b : Byte) (s : State) : Result := readClass (eaZp b) opLdx s

/-- $AE LDX abs: 41_load_store_transfer.md R181. -/
def execLdxAbs (lo hi : Byte) (s : State) : Result := readClass (eaAbs lo hi) opLdx s

/-- $B6 LDX zpy: 41_load_store_transfer.md R181. -/
def execLdxZpy (b : Byte) (s : State) : Result := readClass (eaZpy b) opLdx s

/-- $BE LDX aby: 41_load_store_transfer.md R181. -/
def execLdxAby (lo hi : Byte) (s : State) : Result := readClass (eaAby .read lo hi) opLdx s

/-- $A0 LDY imm: 41_load_store_transfer.md R182. -/
def execLdyImm (b : Byte) (s : State) : Result := immediate opLdy b s

/-- $A4 LDY zp: 41_load_store_transfer.md R182. -/
def execLdyZp (b : Byte) (s : State) : Result := readClass (eaZp b) opLdy s

/-- $AC LDY abs: 41_load_store_transfer.md R182. -/
def execLdyAbs (lo hi : Byte) (s : State) : Result := readClass (eaAbs lo hi) opLdy s

/-- $B4 LDY zpx: 41_load_store_transfer.md R182. -/
def execLdyZpx (b : Byte) (s : State) : Result := readClass (eaZpx b) opLdy s

/-- $BC LDY abx: 41_load_store_transfer.md R182. -/
def execLdyAbx (lo hi : Byte) (s : State) : Result := readClass (eaAbx .read lo hi) opLdy s

/-- $81 STA izx: 41_load_store_transfer.md R183. -/
def execStaIzx (b : Byte) (s : State) : Result := writeClass (eaIzx b) State.a s

/-- $85 STA zp: 41_load_store_transfer.md R183. -/
def execStaZp (b : Byte) (s : State) : Result := writeClass (eaZp b) State.a s

/-- $8D STA abs: 41_load_store_transfer.md R183. -/
def execStaAbs (lo hi : Byte) (s : State) : Result := writeClass (eaAbs lo hi) State.a s

/-- $91 STA izy: 41_load_store_transfer.md R183. -/
def execStaIzy (b : Byte) (s : State) : Result := writeClass (eaIzy .write b) State.a s

/-- $95 STA zpx: 41_load_store_transfer.md R183. -/
def execStaZpx (b : Byte) (s : State) : Result := writeClass (eaZpx b) State.a s

/-- $99 STA aby: 41_load_store_transfer.md R183. -/
def execStaAby (lo hi : Byte) (s : State) : Result := writeClass (eaAby .write lo hi) State.a s

/-- $9D STA abx: 41_load_store_transfer.md R183. -/
def execStaAbx (lo hi : Byte) (s : State) : Result := writeClass (eaAbx .write lo hi) State.a s

/-- $86 STX zp: 41_load_store_transfer.md R184. -/
def execStxZp (b : Byte) (s : State) : Result := writeClass (eaZp b) State.x s

/-- $8E STX abs: 41_load_store_transfer.md R184. -/
def execStxAbs (lo hi : Byte) (s : State) : Result := writeClass (eaAbs lo hi) State.x s

/-- $96 STX zpy: 41_load_store_transfer.md R184. -/
def execStxZpy (b : Byte) (s : State) : Result := writeClass (eaZpy b) State.x s

/-- $84 STY zp: 41_load_store_transfer.md R185. -/
def execStyZp (b : Byte) (s : State) : Result := writeClass (eaZp b) State.y s

/-- $8C STY abs: 41_load_store_transfer.md R185. -/
def execStyAbs (lo hi : Byte) (s : State) : Result := writeClass (eaAbs lo hi) State.y s

/-- $94 STY zpx: 41_load_store_transfer.md R185. -/
def execStyZpx (b : Byte) (s : State) : Result := writeClass (eaZpx b) State.y s

/-- $AA TAX imp: 41_load_store_transfer.md R186. -/
def execTax (s : State) : Result := implied opTax s

/-- $A8 TAY imp: 41_load_store_transfer.md R187. -/
def execTay (s : State) : Result := implied opTay s

/-- $8A TXA imp: 41_load_store_transfer.md R188. -/
def execTxa (s : State) : Result := implied opTxa s

/-- $98 TYA imp: 41_load_store_transfer.md R189. -/
def execTya (s : State) : Result := implied opTya s

/-- $BA TSX imp: 41_load_store_transfer.md R190. -/
def execTsx (s : State) : Result := implied opTsx s

/-- $9A TXS imp: 41_load_store_transfer.md R191. -/
def execTxs (s : State) : Result := implied opTxs s

/-- $48 PHA imp: 41_load_store_transfer.md R192. -/
def execPha (s : State) : Result := .next (runPha s)

/-- $08 PHP imp: 41_load_store_transfer.md R193. -/
def execPhp (s : State) : Result := .next (runPhp s)

/-- $68 PLA imp: 41_load_store_transfer.md R194. -/
def execPla (s : State) : Result := .next (runPla s)

/-- $28 PLP imp: 41_load_store_transfer.md R195. -/
def execPlp (s : State) : Result := .next (runPlp s)

end Sys2Proof.Machine
end

