-- ==== Sys2Proof/Machine/Arith.lean ====
section
/-! DEFINITION. Arithmetic, logic, compare, increment and shift instructions. 42_arith_logic_shift.md R210 to R230. -/

namespace Sys2Proof.Machine

/-! ## Operations on `A` and the flags -/

/-- `A <- AddWithCarry(A, v, C)` (R212). -/
def opAdc (v : Byte) (s : State) : State :=
  (s.setA (addResult s.a v s.p.c)).setP (s.p.addWithCarry s.a v s.p.c)

/-- `A <- AddWithCarry(A, v ^ $FF, C)` (R213). -/
def opSbc (v : Byte) (s : State) : State := opAdc (v ^^^ 0xFF#8) s

/-- `A <- A & v; setNZ(A)` (R214). -/
def opAnd (v : Byte) (s : State) : State := opLda (s.a &&& v) s

/-- `A <- A | v; setNZ(A)` (R215). -/
def opOra (v : Byte) (s : State) : State := opLda (s.a ||| v) s

/-- `A <- A ^ v; setNZ(A)` (R216). -/
def opEor (v : Byte) (s : State) : State := opLda (s.a ^^^ v) s

/-- `BIT` (R217). -/
def opBit (v : Byte) (s : State) : State := s.setP (s.p.bitTest s.a v)

/-- `Compare(A, v)` (R218). -/
def opCmp (v : Byte) (s : State) : State := s.setP (s.p.compare s.a v)

/-- `Compare(X, v)` (R219). -/
def opCpx (v : Byte) (s : State) : State := s.setP (s.p.compare s.x v)

/-- `Compare(Y, v)` (R220). -/
def opCpy (v : Byte) (s : State) : State := s.setP (s.p.compare s.y v)

/-- `X <- X + 1` (R223). -/
def opInx (s : State) : State := opLdx (s.x + 1) s

/-- `Y <- Y + 1` (R224). -/
def opIny (s : State) : State := opLdy (s.y + 1) s

/-- `X <- X - 1` (R225). -/
def opDex (s : State) : State := opLdx (s.x - 1) s

/-- `Y <- Y - 1` (R226). -/
def opDey (s : State) : State := opLdy (s.y - 1) s

/-! ## Operations of the read-modify-write class: the result byte, and the state with its flags -/

/-- `INC` (R221). -/
def modInc (v : Byte) (s : State) : Byte × State := (v + 1, s.setNZ (v + 1))

/-- `DEC` (R222). -/
def modDec (v : Byte) (s : State) : Byte × State := (v - 1, s.setNZ (v - 1))

/-- `ASL` (R227). -/
def modAsl (v : Byte) (s : State) : Byte × State := (shiftLeft v false, s.setP (s.p.shiftLeft v false))

/-- `LSR` (R228). -/
def modLsr (v : Byte) (s : State) : Byte × State := (shiftRight v false, s.setP (s.p.shiftRight v false))

/-- `ROL` (R229). -/
def modRol (v : Byte) (s : State) : Byte × State := (shiftLeft v s.p.c, s.setP (s.p.shiftLeft v s.p.c))

/-- `ROR` (R230). -/
def modRor (v : Byte) (s : State) : Byte × State := (shiftRight v s.p.c, s.setP (s.p.shiftRight v s.p.c))

/-- A single-operation opcode does nothing after its last write (40_addressing.md R156). -/
def noAfter (_ : Byte) (s : State) : State := s

/-- The accumulator form of a shift or rotate (R227 to R230). -/
def onA (f : Byte → State → Byte × State) (s : State) : State :=
  let r := f s.a s
  r.2.setA r.1

/-- `ASL A` (R227). -/
def accAsl (s : State) : State := onA modAsl s

/-- `LSR A` (R228). -/
def accLsr (s : State) : State := onA modLsr s

/-- `ROL A` (R229). -/
def accRol (s : State) : State := onA modRol s

/-- `ROR A` (R230). -/
def accRor (s : State) : State := onA modRor s

/-! ## Meanings -/

/-- $61 ADC izx: 42_arith_logic_shift.md R212. -/
def execAdcIzx (b : Byte) (s : State) : Result := readClass (eaIzx b) opAdc s

/-- $65 ADC zp: 42_arith_logic_shift.md R212. -/
def execAdcZp (b : Byte) (s : State) : Result := readClass (eaZp b) opAdc s

/-- $69 ADC imm: 42_arith_logic_shift.md R212. -/
def execAdcImm (b : Byte) (s : State) : Result := immediate opAdc b s

/-- $6D ADC abs: 42_arith_logic_shift.md R212. -/
def execAdcAbs (lo hi : Byte) (s : State) : Result := readClass (eaAbs lo hi) opAdc s

/-- $71 ADC izy: 42_arith_logic_shift.md R212. -/
def execAdcIzy (b : Byte) (s : State) : Result := readClass (eaIzy .read b) opAdc s

/-- $75 ADC zpx: 42_arith_logic_shift.md R212. -/
def execAdcZpx (b : Byte) (s : State) : Result := readClass (eaZpx b) opAdc s

/-- $79 ADC aby: 42_arith_logic_shift.md R212. -/
def execAdcAby (lo hi : Byte) (s : State) : Result := readClass (eaAby .read lo hi) opAdc s

/-- $7D ADC abx: 42_arith_logic_shift.md R212. -/
def execAdcAbx (lo hi : Byte) (s : State) : Result := readClass (eaAbx .read lo hi) opAdc s

/-- $E1 SBC izx: 42_arith_logic_shift.md R213. -/
def execSbcIzx (b : Byte) (s : State) : Result := readClass (eaIzx b) opSbc s

/-- $E5 SBC zp: 42_arith_logic_shift.md R213. -/
def execSbcZp (b : Byte) (s : State) : Result := readClass (eaZp b) opSbc s

/-- $E9 SBC imm: 42_arith_logic_shift.md R213. -/
def execSbcImm (b : Byte) (s : State) : Result := immediate opSbc b s

/-- $EB SBC imm: 44_unofficial.md R300. -/
def execSbcImmEB (b : Byte) (s : State) : Result := immediate opSbc b s

/-- $ED SBC abs: 42_arith_logic_shift.md R213. -/
def execSbcAbs (lo hi : Byte) (s : State) : Result := readClass (eaAbs lo hi) opSbc s

/-- $F1 SBC izy: 42_arith_logic_shift.md R213. -/
def execSbcIzy (b : Byte) (s : State) : Result := readClass (eaIzy .read b) opSbc s

/-- $F5 SBC zpx: 42_arith_logic_shift.md R213. -/
def execSbcZpx (b : Byte) (s : State) : Result := readClass (eaZpx b) opSbc s

/-- $F9 SBC aby: 42_arith_logic_shift.md R213. -/
def execSbcAby (lo hi : Byte) (s : State) : Result := readClass (eaAby .read lo hi) opSbc s

/-- $FD SBC abx: 42_arith_logic_shift.md R213. -/
def execSbcAbx (lo hi : Byte) (s : State) : Result := readClass (eaAbx .read lo hi) opSbc s

/-- $21 AND izx: 42_arith_logic_shift.md R214. -/
def execAndIzx (b : Byte) (s : State) : Result := readClass (eaIzx b) opAnd s

/-- $25 AND zp: 42_arith_logic_shift.md R214. -/
def execAndZp (b : Byte) (s : State) : Result := readClass (eaZp b) opAnd s

/-- $29 AND imm: 42_arith_logic_shift.md R214. -/
def execAndImm (b : Byte) (s : State) : Result := immediate opAnd b s

/-- $2D AND abs: 42_arith_logic_shift.md R214. -/
def execAndAbs (lo hi : Byte) (s : State) : Result := readClass (eaAbs lo hi) opAnd s

/-- $31 AND izy: 42_arith_logic_shift.md R214. -/
def execAndIzy (b : Byte) (s : State) : Result := readClass (eaIzy .read b) opAnd s

/-- $35 AND zpx: 42_arith_logic_shift.md R214. -/
def execAndZpx (b : Byte) (s : State) : Result := readClass (eaZpx b) opAnd s

/-- $39 AND aby: 42_arith_logic_shift.md R214. -/
def execAndAby (lo hi : Byte) (s : State) : Result := readClass (eaAby .read lo hi) opAnd s

/-- $3D AND abx: 42_arith_logic_shift.md R214. -/
def execAndAbx (lo hi : Byte) (s : State) : Result := readClass (eaAbx .read lo hi) opAnd s

/-- $01 ORA izx: 42_arith_logic_shift.md R215. -/
def execOraIzx (b : Byte) (s : State) : Result := readClass (eaIzx b) opOra s

/-- $05 ORA zp: 42_arith_logic_shift.md R215. -/
def execOraZp (b : Byte) (s : State) : Result := readClass (eaZp b) opOra s

/-- $09 ORA imm: 42_arith_logic_shift.md R215. -/
def execOraImm (b : Byte) (s : State) : Result := immediate opOra b s

/-- $0D ORA abs: 42_arith_logic_shift.md R215. -/
def execOraAbs (lo hi : Byte) (s : State) : Result := readClass (eaAbs lo hi) opOra s

/-- $11 ORA izy: 42_arith_logic_shift.md R215. -/
def execOraIzy (b : Byte) (s : State) : Result := readClass (eaIzy .read b) opOra s

/-- $15 ORA zpx: 42_arith_logic_shift.md R215. -/
def execOraZpx (b : Byte) (s : State) : Result := readClass (eaZpx b) opOra s

/-- $19 ORA aby: 42_arith_logic_shift.md R215. -/
def execOraAby (lo hi : Byte) (s : State) : Result := readClass (eaAby .read lo hi) opOra s

/-- $1D ORA abx: 42_arith_logic_shift.md R215. -/
def execOraAbx (lo hi : Byte) (s : State) : Result := readClass (eaAbx .read lo hi) opOra s

/-- $41 EOR izx: 42_arith_logic_shift.md R216. -/
def execEorIzx (b : Byte) (s : State) : Result := readClass (eaIzx b) opEor s

/-- $45 EOR zp: 42_arith_logic_shift.md R216. -/
def execEorZp (b : Byte) (s : State) : Result := readClass (eaZp b) opEor s

/-- $49 EOR imm: 42_arith_logic_shift.md R216. -/
def execEorImm (b : Byte) (s : State) : Result := immediate opEor b s

/-- $4D EOR abs: 42_arith_logic_shift.md R216. -/
def execEorAbs (lo hi : Byte) (s : State) : Result := readClass (eaAbs lo hi) opEor s

/-- $51 EOR izy: 42_arith_logic_shift.md R216. -/
def execEorIzy (b : Byte) (s : State) : Result := readClass (eaIzy .read b) opEor s

/-- $55 EOR zpx: 42_arith_logic_shift.md R216. -/
def execEorZpx (b : Byte) (s : State) : Result := readClass (eaZpx b) opEor s

/-- $59 EOR aby: 42_arith_logic_shift.md R216. -/
def execEorAby (lo hi : Byte) (s : State) : Result := readClass (eaAby .read lo hi) opEor s

/-- $5D EOR abx: 42_arith_logic_shift.md R216. -/
def execEorAbx (lo hi : Byte) (s : State) : Result := readClass (eaAbx .read lo hi) opEor s

/-- $24 BIT zp: 42_arith_logic_shift.md R217. -/
def execBitZp (b : Byte) (s : State) : Result := readClass (eaZp b) opBit s

/-- $2C BIT abs: 42_arith_logic_shift.md R217. -/
def execBitAbs (lo hi : Byte) (s : State) : Result := readClass (eaAbs lo hi) opBit s

/-- $C1 CMP izx: 42_arith_logic_shift.md R218. -/
def execCmpIzx (b : Byte) (s : State) : Result := readClass (eaIzx b) opCmp s

/-- $C5 CMP zp: 42_arith_logic_shift.md R218. -/
def execCmpZp (b : Byte) (s : State) : Result := readClass (eaZp b) opCmp s

/-- $C9 CMP imm: 42_arith_logic_shift.md R218. -/
def execCmpImm (b : Byte) (s : State) : Result := immediate opCmp b s

/-- $CD CMP abs: 42_arith_logic_shift.md R218. -/
def execCmpAbs (lo hi : Byte) (s : State) : Result := readClass (eaAbs lo hi) opCmp s

/-- $D1 CMP izy: 42_arith_logic_shift.md R218. -/
def execCmpIzy (b : Byte) (s : State) : Result := readClass (eaIzy .read b) opCmp s

/-- $D5 CMP zpx: 42_arith_logic_shift.md R218. -/
def execCmpZpx (b : Byte) (s : State) : Result := readClass (eaZpx b) opCmp s

/-- $D9 CMP aby: 42_arith_logic_shift.md R218. -/
def execCmpAby (lo hi : Byte) (s : State) : Result := readClass (eaAby .read lo hi) opCmp s

/-- $DD CMP abx: 42_arith_logic_shift.md R218. -/
def execCmpAbx (lo hi : Byte) (s : State) : Result := readClass (eaAbx .read lo hi) opCmp s

/-- $E0 CPX imm: 42_arith_logic_shift.md R219. -/
def execCpxImm (b : Byte) (s : State) : Result := immediate opCpx b s

/-- $E4 CPX zp: 42_arith_logic_shift.md R219. -/
def execCpxZp (b : Byte) (s : State) : Result := readClass (eaZp b) opCpx s

/-- $EC CPX abs: 42_arith_logic_shift.md R219. -/
def execCpxAbs (lo hi : Byte) (s : State) : Result := readClass (eaAbs lo hi) opCpx s

/-- $C0 CPY imm: 42_arith_logic_shift.md R220. -/
def execCpyImm (b : Byte) (s : State) : Result := immediate opCpy b s

/-- $C4 CPY zp: 42_arith_logic_shift.md R220. -/
def execCpyZp (b : Byte) (s : State) : Result := readClass (eaZp b) opCpy s

/-- $CC CPY abs: 42_arith_logic_shift.md R220. -/
def execCpyAbs (lo hi : Byte) (s : State) : Result := readClass (eaAbs lo hi) opCpy s

/-- $E6 INC zp: 42_arith_logic_shift.md R221. -/
def execIncZp (b : Byte) (s : State) : Result := rmwClass (eaZp b) modInc noAfter s

/-- $EE INC abs: 42_arith_logic_shift.md R221. -/
def execIncAbs (lo hi : Byte) (s : State) : Result := rmwClass (eaAbs lo hi) modInc noAfter s

/-- $F6 INC zpx: 42_arith_logic_shift.md R221. -/
def execIncZpx (b : Byte) (s : State) : Result := rmwClass (eaZpx b) modInc noAfter s

/-- $FE INC abx: 42_arith_logic_shift.md R221. -/
def execIncAbx (lo hi : Byte) (s : State) : Result := rmwClass (eaAbx .rmw lo hi) modInc noAfter s

/-- $C6 DEC zp: 42_arith_logic_shift.md R222. -/
def execDecZp (b : Byte) (s : State) : Result := rmwClass (eaZp b) modDec noAfter s

/-- $CE DEC abs: 42_arith_logic_shift.md R222. -/
def execDecAbs (lo hi : Byte) (s : State) : Result := rmwClass (eaAbs lo hi) modDec noAfter s

/-- $D6 DEC zpx: 42_arith_logic_shift.md R222. -/
def execDecZpx (b : Byte) (s : State) : Result := rmwClass (eaZpx b) modDec noAfter s

/-- $DE DEC abx: 42_arith_logic_shift.md R222. -/
def execDecAbx (lo hi : Byte) (s : State) : Result := rmwClass (eaAbx .rmw lo hi) modDec noAfter s

/-- $E8 INX imp: 42_arith_logic_shift.md R223. -/
def execInx (s : State) : Result := implied opInx s

/-- $C8 INY imp: 42_arith_logic_shift.md R224. -/
def execIny (s : State) : Result := implied opIny s

/-- $CA DEX imp: 42_arith_logic_shift.md R225. -/
def execDex (s : State) : Result := implied opDex s

/-- $88 DEY imp: 42_arith_logic_shift.md R226. -/
def execDey (s : State) : Result := implied opDey s

/-- $06 ASL zp: 42_arith_logic_shift.md R227. -/
def execAslZp (b : Byte) (s : State) : Result := rmwClass (eaZp b) modAsl noAfter s

/-- $0A ASL acc: 42_arith_logic_shift.md R227. -/
def execAslAcc (s : State) : Result := implied accAsl s

/-- $0E ASL abs: 42_arith_logic_shift.md R227. -/
def execAslAbs (lo hi : Byte) (s : State) : Result := rmwClass (eaAbs lo hi) modAsl noAfter s

/-- $16 ASL zpx: 42_arith_logic_shift.md R227. -/
def execAslZpx (b : Byte) (s : State) : Result := rmwClass (eaZpx b) modAsl noAfter s

/-- $1E ASL abx: 42_arith_logic_shift.md R227. -/
def execAslAbx (lo hi : Byte) (s : State) : Result := rmwClass (eaAbx .rmw lo hi) modAsl noAfter s

/-- $46 LSR zp: 42_arith_logic_shift.md R228. -/
def execLsrZp (b : Byte) (s : State) : Result := rmwClass (eaZp b) modLsr noAfter s

/-- $4A LSR acc: 42_arith_logic_shift.md R228. -/
def execLsrAcc (s : State) : Result := implied accLsr s

/-- $4E LSR abs: 42_arith_logic_shift.md R228. -/
def execLsrAbs (lo hi : Byte) (s : State) : Result := rmwClass (eaAbs lo hi) modLsr noAfter s

/-- $56 LSR zpx: 42_arith_logic_shift.md R228. -/
def execLsrZpx (b : Byte) (s : State) : Result := rmwClass (eaZpx b) modLsr noAfter s

/-- $5E LSR abx: 42_arith_logic_shift.md R228. -/
def execLsrAbx (lo hi : Byte) (s : State) : Result := rmwClass (eaAbx .rmw lo hi) modLsr noAfter s

/-- $26 ROL zp: 42_arith_logic_shift.md R229. -/
def execRolZp (b : Byte) (s : State) : Result := rmwClass (eaZp b) modRol noAfter s

/-- $2A ROL acc: 42_arith_logic_shift.md R229. -/
def execRolAcc (s : State) : Result := implied accRol s

/-- $2E ROL abs: 42_arith_logic_shift.md R229. -/
def execRolAbs (lo hi : Byte) (s : State) : Result := rmwClass (eaAbs lo hi) modRol noAfter s

/-- $36 ROL zpx: 42_arith_logic_shift.md R229. -/
def execRolZpx (b : Byte) (s : State) : Result := rmwClass (eaZpx b) modRol noAfter s

/-- $3E ROL abx: 42_arith_logic_shift.md R229. -/
def execRolAbx (lo hi : Byte) (s : State) : Result := rmwClass (eaAbx .rmw lo hi) modRol noAfter s

/-- $66 ROR zp: 42_arith_logic_shift.md R230. -/
def execRorZp (b : Byte) (s : State) : Result := rmwClass (eaZp b) modRor noAfter s

/-- $6A ROR acc: 42_arith_logic_shift.md R230. -/
def execRorAcc (s : State) : Result := implied accRor s

/-- $6E ROR abs: 42_arith_logic_shift.md R230. -/
def execRorAbs (lo hi : Byte) (s : State) : Result := rmwClass (eaAbs lo hi) modRor noAfter s

/-- $76 ROR zpx: 42_arith_logic_shift.md R230. -/
def execRorZpx (b : Byte) (s : State) : Result := rmwClass (eaZpx b) modRor noAfter s

/-- $7E ROR abx: 42_arith_logic_shift.md R230. -/
def execRorAbx (lo hi : Byte) (s : State) : Result := rmwClass (eaAbx .rmw lo hi) modRor noAfter s

end Sys2Proof.Machine
end

