-- ==== Sys2Proof/Machine/Control.lean ====
section
/-! DEFINITION. Branch, jump, call, return, break and flag instructions. 43_control_flags.md R250 to R270. -/

namespace Sys2Proof.Machine

/-! ## Operations -/

/-- A taken branch to `t` (R250): one dummy read without capture on the same page, two on a page crossing. -/
def takeBranch (t : Word) (s : State) : State :=
  if hi8 t = hi8 s.pc then (busReadWith true s.pc s).2.setPc t
  else
    let s1 := dummyRead s.pc s
    (dummyRead (mk16 (hi8 s1.pc) (lo8 t)) s1).setPc t

/-- The branch sequence after its operand fetch (R250). -/
def branch (cond : Bool) (off : Byte) (s : State) : Result :=
  .next (if cond then takeBranch (branchTarget s.pc off) s else s)

/-- `JMP ($nnnn)` after its operand fetches (R259). -/
def runJmpInd (lo hi : Byte) (s : State) : State :=
  let r := targetInd lo hi s
  r.2.setPc r.1

/-- `JSR` after the fetch of its low byte (R260): the high byte is read after the pushes. -/
def runJsr (lo : Byte) (s : State) : State :=
  let s1 := dummyStackRead s
  let s2 := push (hi8 s1.pc) s1
  let s3 := push (lo8 s2.pc) s2
  let hi := busRead s3.pc s3
  hi.2.setPc (mk16 hi.1 lo)

/-- `RTS` after the opcode (R261). -/
def runRts (s : State) : State :=
  let lo := pull (dummyStackRead (dummyRead s.pc s))
  let hi := pull lo.2
  (dummyRead (mk16 hi.1 lo.1) hi.2).setPc (mk16 hi.1 lo.1 + 1)

/-- `BRK` after the opcode (R262): the padding byte, the shared entry with B = 1, then one step without servicing. -/
def runBrk (s : State) : State :=
  { enterHandler true (fetchOperand s).2 with noServiceNext := true }

/-- `RTI` after the opcode (R263). -/
def runRti (s : State) : State := returnFromInterrupt (dummyStackRead (dummyRead s.pc s))

/-- `C <- 0` (R264). -/
def opClc (s : State) : State := s.setP { s.p with c := false }

/-- `C <- 1` (R265). -/
def opSec (s : State) : State := s.setP { s.p with c := true }

/-- `I <- 0` (R266). -/
def opCli (s : State) : State := s.setP { s.p with i := false }

/-- `I <- 1` (R267). -/
def opSei (s : State) : State := s.setP { s.p with i := true }

/-- `V <- 0` (R268). -/
def opClv (s : State) : State := s.setP { s.p with v := false }

/-- `D <- 0` (R269). -/
def opCld (s : State) : State := s.setP { s.p with d := false }

/-- `D <- 1` (R270). -/
def opSed (s : State) : State := s.setP { s.p with d := true }

/-! ## Meanings -/

/-- $10 BPL rel: 43_control_flags.md R251. -/
def execBpl (b : Byte) (s : State) : Result := branch (!s.p.n) b s

/-- $30 BMI rel: 43_control_flags.md R252. -/
def execBmi (b : Byte) (s : State) : Result := branch (s.p.n) b s

/-- $50 BVC rel: 43_control_flags.md R253. -/
def execBvc (b : Byte) (s : State) : Result := branch (!s.p.v) b s

/-- $70 BVS rel: 43_control_flags.md R254. -/
def execBvs (b : Byte) (s : State) : Result := branch (s.p.v) b s

/-- $90 BCC rel: 43_control_flags.md R255. -/
def execBcc (b : Byte) (s : State) : Result := branch (!s.p.c) b s

/-- $B0 BCS rel: 43_control_flags.md R256. -/
def execBcs (b : Byte) (s : State) : Result := branch (s.p.c) b s

/-- $D0 BNE rel: 43_control_flags.md R257. -/
def execBne (b : Byte) (s : State) : Result := branch (!s.p.z) b s

/-- $F0 BEQ rel: 43_control_flags.md R258. -/
def execBeq (b : Byte) (s : State) : Result := branch (s.p.z) b s

/-- $4C JMP abs: 43_control_flags.md R259. -/
def execJmpAbs (lo hi : Byte) (s : State) : Result := .next (s.setPc (mk16 hi lo))

/-- $6C JMP ind: 43_control_flags.md R259. -/
def execJmpInd (lo hi : Byte) (s : State) : Result := .next (runJmpInd lo hi s)

/-- $20 JSR abs: 43_control_flags.md R260. The high byte of the target is the one that the bus gives after the pushes,
not the one that stood at `PC` before them. -/
def execJsr (target : Word) (s : State) : Result := .next (runJsr (lo8 target) s)

/-- $60 RTS imp: 43_control_flags.md R261. -/
def execRts (s : State) : Result := .next (runRts s)

/-- $00 BRK imp: 43_control_flags.md R262. -/
def execBrk (s : State) : Result := .next (runBrk s)

/-- $40 RTI imp: 43_control_flags.md R263. -/
def execRti (s : State) : Result := .next (runRti s)

/-- $18 CLC imp: 43_control_flags.md R264. -/
def execClc (s : State) : Result := implied opClc s

/-- $38 SEC imp: 43_control_flags.md R265. -/
def execSec (s : State) : Result := implied opSec s

/-- $58 CLI imp: 43_control_flags.md R266. -/
def execCli (s : State) : Result := implied opCli s

/-- $78 SEI imp: 43_control_flags.md R267. -/
def execSei (s : State) : Result := implied opSei s

/-- $B8 CLV imp: 43_control_flags.md R268. -/
def execClv (s : State) : Result := implied opClv s

/-- $D8 CLD imp: 43_control_flags.md R269. -/
def execCld (s : State) : Result := implied opCld s

/-- $F8 SED imp: 43_control_flags.md R270. -/
def execSed (s : State) : Result := implied opSed s

end Sys2Proof.Machine
end

