-- ==== Sys2Proof/Machine/Unofficial.lean ====
section
/-! DEFINITION. The unofficial opcodes, the official NOP beside the others, and the halt opcodes.
44_unofficial.md R290 to R320, 43_control_flags.md R271. -/

namespace Sys2Proof.Machine

/-! ## Operations -/

/-- The unstable opcodes (R290): fatal after the opcode fetch where `UNSTABLE_FATAL`, else their own effect. -/
def unstable (op : Byte) (run : State → Result) (s : State) : Result :=
  if s.params.unstableFatal then .next (raiseFatal op s) else run s

/-- `r <- v - 1` with no flag of its own: `DCP` compares afterwards (R295). -/
def modDecQuiet (v : Byte) (s : State) : Byte × State := (v - 1, s)

/-- `r <- v + 1` with no flag of its own: `ISB` subtracts afterwards (R296). -/
def modIncQuiet (v : Byte) (s : State) : Byte × State := (v + 1, s)

/-- `A <- v; X <- v; setNZ(v)` (R297). -/
def opLax (v : Byte) (s : State) : State := ((s.setA v).setX v).setNZ v

/-- `A & X`, the value that `SAX` and `SHA` store (R298, R316). -/
def valueSax (s : State) : Byte := s.a &&& s.x

/-- The read value is discarded (R299). -/
def opDiscard (_ : Byte) (s : State) : State := s

/-- `ANC` (R301). -/
def opAnc (v : Byte) (s : State) : State := (s.setA (s.a &&& v)).setP (s.p.anc (s.a &&& v))

/-- `ALR` (R302). -/
def opAlr (v : Byte) (s : State) : State :=
  (s.setA (shiftRight (s.a &&& v) false)).setP (s.p.shiftRight (s.a &&& v) false)

/-- `ARR` (R303). -/
def opArr (v : Byte) (s : State) : State :=
  (s.setA (arrResult (s.a &&& v) s.p.c)).setP (s.p.arr (arrResult (s.a &&& v) s.p.c))

/-- `AXS` (R304). -/
def opAxs (v : Byte) (s : State) : State := (s.setX ((s.a &&& s.x) - v)).setP (s.p.compare (s.a &&& s.x) v)

/-- `LAS` (R305). -/
def opLas (v : Byte) (s : State) : State := ((opLax (v &&& s.s) s).setS (v &&& s.s))

/-- `ANE` (R314). -/
def opAne (v : Byte) (s : State) : State := opLda ((s.a ||| s.params.aneMagic) &&& s.x &&& v) s

/-- `LXA` (R315). -/
def opLxa (v : Byte) (s : State) : State := opLax ((s.a ||| s.params.lxaMagic) &&& v) s

/-- `S <- A & X`, before the store cycle of `TAS` (R319). -/
def setStackAX (s : State) : State := s.setS (s.a &&& s.x)

/-- The store-high family in mode `izy` (R306, R316): `H` is the pointer's high byte. -/
def storeHighIzy (b : Byte) (prep : State → State) (reg : State → Byte) (s : State) : Result :=
  let r := pointerIzy b s
  storeHigh r.1.1 r.1.2 r.2.y prep reg r.2

/-! ## Meanings -/

/-- $03 SLO izx: 44_unofficial.md R291. -/
def execSloIzx (b : Byte) (s : State) : Result := rmwClass (eaIzx b) modAsl opOra s

/-- $07 SLO zp: 44_unofficial.md R291. -/
def execSloZp (b : Byte) (s : State) : Result := rmwClass (eaZp b) modAsl opOra s

/-- $0F SLO abs: 44_unofficial.md R291. -/
def execSloAbs (lo hi : Byte) (s : State) : Result := rmwClass (eaAbs lo hi) modAsl opOra s

/-- $13 SLO izy: 44_unofficial.md R291. -/
def execSloIzy (b : Byte) (s : State) : Result := rmwClass (eaIzy .rmw b) modAsl opOra s

/-- $17 SLO zpx: 44_unofficial.md R291. -/
def execSloZpx (b : Byte) (s : State) : Result := rmwClass (eaZpx b) modAsl opOra s

/-- $1B SLO aby: 44_unofficial.md R291. -/
def execSloAby (lo hi : Byte) (s : State) : Result := rmwClass (eaAby .rmw lo hi) modAsl opOra s

/-- $1F SLO abx: 44_unofficial.md R291. -/
def execSloAbx (lo hi : Byte) (s : State) : Result := rmwClass (eaAbx .rmw lo hi) modAsl opOra s

/-- $23 RLA izx: 44_unofficial.md R292. -/
def execRlaIzx (b : Byte) (s : State) : Result := rmwClass (eaIzx b) modRol opAnd s

/-- $27 RLA zp: 44_unofficial.md R292. -/
def execRlaZp (b : Byte) (s : State) : Result := rmwClass (eaZp b) modRol opAnd s

/-- $2F RLA abs: 44_unofficial.md R292. -/
def execRlaAbs (lo hi : Byte) (s : State) : Result := rmwClass (eaAbs lo hi) modRol opAnd s

/-- $33 RLA izy: 44_unofficial.md R292. -/
def execRlaIzy (b : Byte) (s : State) : Result := rmwClass (eaIzy .rmw b) modRol opAnd s

/-- $37 RLA zpx: 44_unofficial.md R292. -/
def execRlaZpx (b : Byte) (s : State) : Result := rmwClass (eaZpx b) modRol opAnd s

/-- $3B RLA aby: 44_unofficial.md R292. -/
def execRlaAby (lo hi : Byte) (s : State) : Result := rmwClass (eaAby .rmw lo hi) modRol opAnd s

/-- $3F RLA abx: 44_unofficial.md R292. -/
def execRlaAbx (lo hi : Byte) (s : State) : Result := rmwClass (eaAbx .rmw lo hi) modRol opAnd s

/-- $43 SRE izx: 44_unofficial.md R293. -/
def execSreIzx (b : Byte) (s : State) : Result := rmwClass (eaIzx b) modLsr opEor s

/-- $47 SRE zp: 44_unofficial.md R293. -/
def execSreZp (b : Byte) (s : State) : Result := rmwClass (eaZp b) modLsr opEor s

/-- $4F SRE abs: 44_unofficial.md R293. -/
def execSreAbs (lo hi : Byte) (s : State) : Result := rmwClass (eaAbs lo hi) modLsr opEor s

/-- $53 SRE izy: 44_unofficial.md R293. -/
def execSreIzy (b : Byte) (s : State) : Result := rmwClass (eaIzy .rmw b) modLsr opEor s

/-- $57 SRE zpx: 44_unofficial.md R293. -/
def execSreZpx (b : Byte) (s : State) : Result := rmwClass (eaZpx b) modLsr opEor s

/-- $5B SRE aby: 44_unofficial.md R293. -/
def execSreAby (lo hi : Byte) (s : State) : Result := rmwClass (eaAby .rmw lo hi) modLsr opEor s

/-- $5F SRE abx: 44_unofficial.md R293. -/
def execSreAbx (lo hi : Byte) (s : State) : Result := rmwClass (eaAbx .rmw lo hi) modLsr opEor s

/-- $63 RRA izx: 44_unofficial.md R294. -/
def execRraIzx (b : Byte) (s : State) : Result := rmwClass (eaIzx b) modRor opAdc s

/-- $67 RRA zp: 44_unofficial.md R294. -/
def execRraZp (b : Byte) (s : State) : Result := rmwClass (eaZp b) modRor opAdc s

/-- $6F RRA abs: 44_unofficial.md R294. -/
def execRraAbs (lo hi : Byte) (s : State) : Result := rmwClass (eaAbs lo hi) modRor opAdc s

/-- $73 RRA izy: 44_unofficial.md R294. -/
def execRraIzy (b : Byte) (s : State) : Result := rmwClass (eaIzy .rmw b) modRor opAdc s

/-- $77 RRA zpx: 44_unofficial.md R294. -/
def execRraZpx (b : Byte) (s : State) : Result := rmwClass (eaZpx b) modRor opAdc s

/-- $7B RRA aby: 44_unofficial.md R294. -/
def execRraAby (lo hi : Byte) (s : State) : Result := rmwClass (eaAby .rmw lo hi) modRor opAdc s

/-- $7F RRA abx: 44_unofficial.md R294. -/
def execRraAbx (lo hi : Byte) (s : State) : Result := rmwClass (eaAbx .rmw lo hi) modRor opAdc s

/-- $C3 DCP izx: 44_unofficial.md R295. -/
def execDcpIzx (b : Byte) (s : State) : Result := rmwClass (eaIzx b) modDecQuiet opCmp s

/-- $C7 DCP zp: 44_unofficial.md R295. -/
def execDcpZp (b : Byte) (s : State) : Result := rmwClass (eaZp b) modDecQuiet opCmp s

/-- $CF DCP abs: 44_unofficial.md R295. -/
def execDcpAbs (lo hi : Byte) (s : State) : Result := rmwClass (eaAbs lo hi) modDecQuiet opCmp s

/-- $D3 DCP izy: 44_unofficial.md R295. -/
def execDcpIzy (b : Byte) (s : State) : Result := rmwClass (eaIzy .rmw b) modDecQuiet opCmp s

/-- $D7 DCP zpx: 44_unofficial.md R295. -/
def execDcpZpx (b : Byte) (s : State) : Result := rmwClass (eaZpx b) modDecQuiet opCmp s

/-- $DB DCP aby: 44_unofficial.md R295. -/
def execDcpAby (lo hi : Byte) (s : State) : Result := rmwClass (eaAby .rmw lo hi) modDecQuiet opCmp s

/-- $DF DCP abx: 44_unofficial.md R295. -/
def execDcpAbx (lo hi : Byte) (s : State) : Result := rmwClass (eaAbx .rmw lo hi) modDecQuiet opCmp s

/-- $E3 ISB izx: 44_unofficial.md R296. -/
def execIsbIzx (b : Byte) (s : State) : Result := rmwClass (eaIzx b) modIncQuiet opSbc s

/-- $E7 ISB zp: 44_unofficial.md R296. -/
def execIsbZp (b : Byte) (s : State) : Result := rmwClass (eaZp b) modIncQuiet opSbc s

/-- $EF ISB abs: 44_unofficial.md R296. -/
def execIsbAbs (lo hi : Byte) (s : State) : Result := rmwClass (eaAbs lo hi) modIncQuiet opSbc s

/-- $F3 ISB izy: 44_unofficial.md R296. -/
def execIsbIzy (b : Byte) (s : State) : Result := rmwClass (eaIzy .rmw b) modIncQuiet opSbc s

/-- $F7 ISB zpx: 44_unofficial.md R296. -/
def execIsbZpx (b : Byte) (s : State) : Result := rmwClass (eaZpx b) modIncQuiet opSbc s

/-- $FB ISB aby: 44_unofficial.md R296. -/
def execIsbAby (lo hi : Byte) (s : State) : Result := rmwClass (eaAby .rmw lo hi) modIncQuiet opSbc s

/-- $FF ISB abx: 44_unofficial.md R296. -/
def execIsbAbx (lo hi : Byte) (s : State) : Result := rmwClass (eaAbx .rmw lo hi) modIncQuiet opSbc s

/-- $A3 LAX izx: 44_unofficial.md R297. -/
def execLaxIzx (b : Byte) (s : State) : Result := readClass (eaIzx b) opLax s

/-- $A7 LAX zp: 44_unofficial.md R297. -/
def execLaxZp (b : Byte) (s : State) : Result := readClass (eaZp b) opLax s

/-- $AF LAX abs: 44_unofficial.md R297. -/
def execLaxAbs (lo hi : Byte) (s : State) : Result := readClass (eaAbs lo hi) opLax s

/-- $B3 LAX izy: 44_unofficial.md R297. -/
def execLaxIzy (b : Byte) (s : State) : Result := readClass (eaIzy .read b) opLax s

/-- $B7 LAX zpy: 44_unofficial.md R297. -/
def execLaxZpy (b : Byte) (s : State) : Result := readClass (eaZpy b) opLax s

/-- $BF LAX aby: 44_unofficial.md R297. -/
def execLaxAby (lo hi : Byte) (s : State) : Result := readClass (eaAby .read lo hi) opLax s

/-- $83 SAX izx: 44_unofficial.md R298. -/
def execSaxIzx (b : Byte) (s : State) : Result := writeClass (eaIzx b) valueSax s

/-- $87 SAX zp: 44_unofficial.md R298. -/
def execSaxZp (b : Byte) (s : State) : Result := writeClass (eaZp b) valueSax s

/-- $8F SAX abs: 44_unofficial.md R298. -/
def execSaxAbs (lo hi : Byte) (s : State) : Result := writeClass (eaAbs lo hi) valueSax s

/-- $97 SAX zpy: 44_unofficial.md R298. -/
def execSaxZpy (b : Byte) (s : State) : Result := writeClass (eaZpy b) valueSax s

/-- $04 NOP zp: 44_unofficial.md R299. -/
def execNopZp04 (b : Byte) (s : State) : Result := readClass (eaZp b) opDiscard s

/-- $0C NOP abs: 44_unofficial.md R299. -/
def execNopAbs (lo hi : Byte) (s : State) : Result := readClass (eaAbs lo hi) opDiscard s

/-- $14 NOP zpx: 44_unofficial.md R299. -/
def execNopZpx14 (b : Byte) (s : State) : Result := readClass (eaZpx b) opDiscard s

/-- $1A NOP imp: 44_unofficial.md R299. -/
def execNopImp1A (s : State) : Result := implied id s

/-- $1C NOP abx: 44_unofficial.md R299. -/
def execNopAbx1C (lo hi : Byte) (s : State) : Result := readClass (eaAbx .read lo hi) opDiscard s

/-- $34 NOP zpx: 44_unofficial.md R299. -/
def execNopZpx34 (b : Byte) (s : State) : Result := readClass (eaZpx b) opDiscard s

/-- $3A NOP imp: 44_unofficial.md R299. -/
def execNopImp3A (s : State) : Result := implied id s

/-- $3C NOP abx: 44_unofficial.md R299. -/
def execNopAbx3C (lo hi : Byte) (s : State) : Result := readClass (eaAbx .read lo hi) opDiscard s

/-- $44 NOP zp: 44_unofficial.md R299. -/
def execNopZp44 (b : Byte) (s : State) : Result := readClass (eaZp b) opDiscard s

/-- $54 NOP zpx: 44_unofficial.md R299. -/
def execNopZpx54 (b : Byte) (s : State) : Result := readClass (eaZpx b) opDiscard s

/-- $5A NOP imp: 44_unofficial.md R299. -/
def execNopImp5A (s : State) : Result := implied id s

/-- $5C NOP abx: 44_unofficial.md R299. -/
def execNopAbx5C (lo hi : Byte) (s : State) : Result := readClass (eaAbx .read lo hi) opDiscard s

/-- $64 NOP zp: 44_unofficial.md R299. -/
def execNopZp64 (b : Byte) (s : State) : Result := readClass (eaZp b) opDiscard s

/-- $74 NOP zpx: 44_unofficial.md R299. -/
def execNopZpx74 (b : Byte) (s : State) : Result := readClass (eaZpx b) opDiscard s

/-- $7A NOP imp: 44_unofficial.md R299. -/
def execNopImp7A (s : State) : Result := implied id s

/-- $7C NOP abx: 44_unofficial.md R299. -/
def execNopAbx7C (lo hi : Byte) (s : State) : Result := readClass (eaAbx .read lo hi) opDiscard s

/-- $80 NOP imm: 44_unofficial.md R299. -/
def execNopImm80 (b : Byte) (s : State) : Result := immediate opDiscard b s

/-- $82 NOP imm: 44_unofficial.md R299. -/
def execNopImm82 (b : Byte) (s : State) : Result := immediate opDiscard b s

/-- $89 NOP imm: 44_unofficial.md R299. -/
def execNopImm89 (b : Byte) (s : State) : Result := immediate opDiscard b s

/-- $C2 NOP imm: 44_unofficial.md R299. -/
def execNopImmC2 (b : Byte) (s : State) : Result := immediate opDiscard b s

/-- $D4 NOP zpx: 44_unofficial.md R299. -/
def execNopZpxD4 (b : Byte) (s : State) : Result := readClass (eaZpx b) opDiscard s

/-- $DA NOP imp: 44_unofficial.md R299. -/
def execNopImpDA (s : State) : Result := implied id s

/-- $DC NOP abx: 44_unofficial.md R299. -/
def execNopAbxDC (lo hi : Byte) (s : State) : Result := readClass (eaAbx .read lo hi) opDiscard s

/-- $E2 NOP imm: 44_unofficial.md R299. -/
def execNopImmE2 (b : Byte) (s : State) : Result := immediate opDiscard b s

/-- $EA NOP imp: 43_control_flags.md R271. -/
def execNop (s : State) : Result := implied id s

/-- $F4 NOP zpx: 44_unofficial.md R299. -/
def execNopZpxF4 (b : Byte) (s : State) : Result := readClass (eaZpx b) opDiscard s

/-- $FA NOP imp: 44_unofficial.md R299. -/
def execNopImpFA (s : State) : Result := implied id s

/-- $FC NOP abx: 44_unofficial.md R299. -/
def execNopAbxFC (lo hi : Byte) (s : State) : Result := readClass (eaAbx .read lo hi) opDiscard s

/-- $0B ANC imm: 44_unofficial.md R301. -/
def execAncImm0B (b : Byte) (s : State) : Result := immediate opAnc b s

/-- $2B ANC imm: 44_unofficial.md R301. -/
def execAncImm2B (b : Byte) (s : State) : Result := immediate opAnc b s

/-- $4B ALR imm: 44_unofficial.md R302. -/
def execAlr (b : Byte) (s : State) : Result := immediate opAlr b s

/-- $6B ARR imm: 44_unofficial.md R303. -/
def execArr (b : Byte) (s : State) : Result := immediate opArr b s

/-- $CB AXS imm: 44_unofficial.md R304. -/
def execAxs (b : Byte) (s : State) : Result := immediate opAxs b s

/-- $BB LAS aby: 44_unofficial.md R305. -/
def execLas (lo hi : Byte) (s : State) : Result := readClass (eaAby .read lo hi) opLas s

/-- $8B ANE imm: 44_unofficial.md R314. -/
def execAne (b : Byte) (s : State) : Result := unstable 0x8B (immediate opAne b) s

/-- $AB LXA imm: 44_unofficial.md R315. -/
def execLxa (b : Byte) (s : State) : Result := unstable 0xAB (immediate opLxa b) s

/-- $93 SHA izy: 44_unofficial.md R316. -/
def execShaIzy (b : Byte) (s : State) : Result := unstable 0x93 (storeHighIzy b id valueSax) s

/-- $9F SHA aby: 44_unofficial.md R316. -/
def execShaAby (lo hi : Byte) (s : State) : Result := unstable 0x9F (storeHigh lo hi s.y id valueSax) s

/-- $9E SHX aby: 44_unofficial.md R317. -/
def execShx (lo hi : Byte) (s : State) : Result := unstable 0x9E (storeHigh lo hi s.y id State.x) s

/-- $9C SHY abx: 44_unofficial.md R318. -/
def execShy (lo hi : Byte) (s : State) : Result := unstable 0x9C (storeHigh lo hi s.x id State.y) s

/-- $9B TAS aby: 44_unofficial.md R319. -/
def execTas (lo hi : Byte) (s : State) : Result := unstable 0x9B (storeHigh lo hi s.y setStackAX State.s) s

/-- $02 JAM imp: 44_unofficial.md R320. -/
def execJam02 (s : State) : Result := .next (raiseFatal 0x02 s)

/-- $12 JAM imp: 44_unofficial.md R320. -/
def execJam12 (s : State) : Result := .next (raiseFatal 0x12 s)

/-- $22 JAM imp: 44_unofficial.md R320. -/
def execJam22 (s : State) : Result := .next (raiseFatal 0x22 s)

/-- $32 JAM imp: 44_unofficial.md R320. -/
def execJam32 (s : State) : Result := .next (raiseFatal 0x32 s)

/-- $42 JAM imp: 44_unofficial.md R320. -/
def execJam42 (s : State) : Result := .next (raiseFatal 0x42 s)

/-- $52 JAM imp: 44_unofficial.md R320. -/
def execJam52 (s : State) : Result := .next (raiseFatal 0x52 s)

/-- $62 JAM imp: 44_unofficial.md R320. -/
def execJam62 (s : State) : Result := .next (raiseFatal 0x62 s)

/-- $72 JAM imp: 44_unofficial.md R320. -/
def execJam72 (s : State) : Result := .next (raiseFatal 0x72 s)

/-- $92 JAM imp: 44_unofficial.md R320. -/
def execJam92 (s : State) : Result := .next (raiseFatal 0x92 s)

/-- $B2 JAM imp: 44_unofficial.md R320. -/
def execJamB2 (s : State) : Result := .next (raiseFatal 0xB2 s)

/-- $D2 JAM imp: 44_unofficial.md R320. -/
def execJamD2 (s : State) : Result := .next (raiseFatal 0xD2 s)

/-- $F2 JAM imp: 44_unofficial.md R320. -/
def execJamF2 (s : State) : Result := .next (raiseFatal 0xF2 s)

end Sys2Proof.Machine
end

