-- ==== Sys2Proof/Machine/Fetch.lean ====
section
/-! DEFINITION. Fetching an instruction by bus cycles, and placing one in memory.
60_exceptions.md R340, 40_addressing.md R140, R141. -/

namespace Sys2Proof.Machine

/-- How many operand bytes are fetched after the opcode: none where the opcode is fatal, since "no other bus cycle is
performed" (44_unofficial.md R290). -/
def fetchCount (op : Byte) (s : State) : Nat :=
  if s.params.unstableFatal && isUnstable op then 0 else fetchLength op - 1

/-- The opcode fetch and the operand fetches of the instruction at `PC` (R140, R141). The high byte that JSR carries is
what a peek gives now; the bus reads it in JSR's own sequence (43_control_flags.md R260, log entry 14). -/
def fetchInstr (s : State) : Instr × State :=
  let r := fetchOperand s
  match fetchCount r.1 r.2 with
  | 0 => (instrOf r.1 0 0, r.2)
  | 1 =>
    let b := fetchOperand r.2
    (instrOf r.1 b.1 (peek b.2.pc b.2), b.2)
  | _ =>
    let b := fetchOperand r.2
    let c := fetchOperand b.2
    (instrOf r.1 b.1 c.1, c.2)

/-- Whether `PC` lies where a byte can be placed: internal RAM, PRG RAM or a mapped PRG ROM address. -/
def placeable (s : State) (a : Nat) : Bool :=
  decide (a < 0x2000) || (decide (0x6000 ≤ a) && (decide (a < 0x8000) || (s.cart.prgIndex a).isSome))

/-- Put a byte into the memory that CPU address `a` reads: internal RAM, PRG RAM or PRG ROM. It is a load from outside
the machine, not a bus cycle. -/
def placeByte (a : Nat) (v : Byte) (s : State) : State :=
  if a < 0x2000 then { s with ram := s.ram.write (a % 0x800) v }
  else if a < 0x6000 then s
  else if a < 0x8000 then { s with cart := { s.cart with prgRam := s.cart.prgRam.write (a - 0x6000) v } }
  else
    match s.cart.prgIndex a with
    | some i => { s with cart := { s.cart with prgRom := s.cart.prgRom.write i v } }
    | none => s

/-- Put bytes from CPU address `a` on, wrapping at $FFFF. -/
def placeBytes : Nat → List Byte → State → State
  | _, [], s => s
  | a, b :: bs, s => placeBytes ((a + 1) % 0x10000) bs (placeByte a b s)

/-- The state in which the very next step fetches these bytes: the session runs, a pending interrupt is not serviced
first, `PC` is moved to $0000 where it lies at no memory, and the bytes stand at `PC`.
DESIGN CHOICE (log entry 12): a program comes to run from `State.reset` by a load from outside the machine. -/
def placeInstr (bytes : List Byte) (s : State) : State :=
  let s1 := { s with
    runState := .running
    noServiceNext := s.noServiceNext || s.nmiPending || s.irqPending
    pc := if placeable s s.pc.toNat && placeable s (s.pc + 2).toNat then s.pc else 0 }
  placeBytes s1.pc.toNat bytes s1

end Sys2Proof.Machine
end

