-- ==== Sys2Proof/Machine/Step.lean ====
section
/-! DEFINITION. One step of the machine, and the placing of one instruction where it fetches next. -/

namespace Sys2Proof.Machine

/-- `Step()` (60_exceptions.md R340): service a pending interrupt, fetch, run. No step exists once the session is
fatal (00_scope.md R12). -/
def step (s : State) : Host.Outcome State Fault Refusal :=
  match s.runState with
  | .fatal _ _ => .fault .sessionEnded
  | .running =>
    let r := fetchInstr (serviceInterrupts s)
    exec r.1 r.2

/-- The state with the instruction whose bits are `w` stored where `step` fetches next: see `placeInstr`. -/
def State.withFetchWord (s : State) (nbits w : Nat) : State := placeInstr (tableBytes 3 (w % 2 ^ nbits)) s

end Sys2Proof.Machine
end

