-- ==== Sys2Proof/Machine/Boot.lean ====
section
/-! DEFINITION. Attaching a cartridge: load, power-on and the reset sequence.
64_cartridge_mappers.md R570 to R575, 70_reset_and_hazards.md R630 to R636. -/

namespace Sys2Proof.Machine

/-- Why a load is refused; it leaves the session unchanged (64_cartridge_mappers.md R571, R573). -/
inductive LoadError where
  /-- No whole header, or no signature. -/
  | malformedHeader
  /-- No PRG data, or fewer PRG and CHR bytes than the header announces. -/
  | truncated
  /-- A mapper number other than 0 to 4. -/
  | unsupportedMapper
  /-- A battery save file that does not hold exactly 8,192 bytes. -/
  | corruptSave
  deriving DecidableEq, Repr

/-- What the host supplies at attach (00_scope.md R7, 64_cartridge_mappers.md R573). -/
structure Launch where
  /-- the ROM file -/
  image : List Byte
  /-- the save file, if it exists -/
  save : Option (List Byte)
  params : Params
  /-- `RAM_INIT` -/
  ramInit : List Byte
  /-- `OAM_INIT` -/
  oamInit : List Byte
  /-- `VRAM_INIT` -/
  vramInit : List Byte
  /-- `PAL_INIT` -/
  palInit : Vector (BitVec 6) 32
  /-- `CHR_RAM_INIT` -/
  chrRamInit : List Byte
  /-- `PRG_RAM_INIT` -/
  prgRamInit : List Byte
  deriving DecidableEq, Repr

/-- The mirroring of the header (R571). -/
def imageMirroring (file : List Byte) : Mirroring :=
  if (imageByte file 6).getLsbD 3 then .fourScreen
  else if (imageByte file 6).getLsbD 0 then .vertical
  else .horizontal

/-- The variant of a mapper number with its power-on registers (R575, R585, R587, R590, R605). -/
def mapperOf (number : Nat) : Mapper :=
  match number with
  | 0 => .nrom
  | 1 => .mmc1 Mmc1.powerOn
  | 2 => .uxrom 0
  | 3 => .cnrom 0
  | _ => .mmc3 Mmc3.powerOn

/-- `prgRam` at attach (R573): the save file with a battery, zeroed when it is absent, else `PRG_RAM_INIT`. -/
def prgRamAtAttach (l : Launch) : Memory :=
  if imageBattery l.image then
    match l.save with
    | some bytes => Memory.ofBytes 0 bytes
    | none => []
  else Memory.ofBytes 0 (l.prgRamInit.take 8192)

/-- `Load` (R571): the cartridge of an image, or why it is refused. -/
def load (l : Launch) : Except LoadError Cart :=
  let f := l.image
  if !imageSigned f then .error .malformedHeader
  else if !imageComplete f then .error .truncated
  else if !imageSupported f then .error .unsupportedMapper
  else if !saveFileOk f l.save then .error .corruptSave
  else
    let data := f.drop (imagePrgOffset f)
    .ok
      { prgRom := Memory.ofBytes 0 (data.take (imagePrgSize f))
        prgBanks16 := (imageByte f 4).toNat
        chr :=
          if imageChrSize f = 0 then Memory.ofBytes 0 (l.chrRamInit.take 8192)
          else Memory.ofBytes 0 ((data.drop (imagePrgSize f)).take (imageChrSize f))
        chrBanks8 := (imageByte f 5).toNat
        prgRam := prgRamAtAttach l
        battery := imageBattery f
        headerMirroring := imageMirroring f
        mirroring := imageMirroring f
        mapper := mapperOf (imageMapper f) }

/-- Nametable RAM is 2 KiB, 4 KiB with four-screen mirroring (62_ppu.md R420). -/
def vramSize (m : Mirroring) : Nat := if m = .fourScreen then 4096 else 2048

/-- Primary OAM at power-on: `OAM_INIT` with the attribute bits that do not exist read as 0 (62_ppu.md R420, R423). -/
def oamAtPowerOn (init : List Byte) : Memory :=
  Memory.ofBytes 0 ((init.take 256).mapIdx fun i b => oamKeep (BitVec.ofNat 8 i) b)

/-- The machine after a cartridge is attached (70_reset_and_hazards.md R636): load, power-on, reset sequence. -/
def attach (l : Launch) : Except LoadError State :=
  match load l with
  | .error e => .error e
  | .ok c =>
    .ok (resetSequence (State.powerOn l.params c (Memory.ofBytes 0 (l.ramInit.take 2048))
      (oamAtPowerOn l.oamInit) (Memory.ofBytes 0 (l.vramInit.take (vramSize c.mirroring))) l.palInit))

end Sys2Proof.Machine
end

