-- ==== Sys2Proof/Safety.lean ====
section
/-! DEFINITION. The terms that statements about the machine use: the programmer's registers as one value, the bytes of
every memory, which bytes a write cycle stores to, and the invariant of a safe run. -/

namespace Sys2Proof.Machine

/-! ## The registers as one value -/

/-- What only instructions, interrupt entry and the fatal halt write: the registers and stored flags of 10_state.md,
`runState`, the flag that BRK leaves, and the open parameters. -/
structure Cpu where
  a : Byte
  x : Byte
  y : Byte
  s : Byte
  pc : Word
  p : Flags
  runState : RunState
  noServiceNext : Bool
  params : Params
  deriving DecidableEq, Repr

/-- The registers of a state. -/
def State.cpu (s : State) : Cpu :=
  { a := s.a, x := s.x, y := s.y, s := s.s, pc := s.pc, p := s.p, runState := s.runState
    noServiceNext := s.noServiceNext, params := s.params }

/-- The state with other registers. -/
def State.withCpu (c : Cpu) (s : State) : State :=
  { s with
    a := c.a, x := c.x, y := c.y, s := c.s, pc := c.pc, p := c.p, runState := c.runState
    noServiceNext := c.noServiceNext, params := c.params }

/-! ## The bytes of every memory -/

/-- The memories that hold their bytes until something stores to them. The frame buffer and secondary OAM, which the
picture unit rewrites as its dots pass, are not among them. -/
inductive Space where
  /-- internal RAM (20_memory.md R78) -/
  | ram
  /-- cartridge RAM (64_cartridge_mappers.md R572) -/
  | prgRam
  /-- program ROM (64_cartridge_mappers.md R572) -/
  | prgRom
  /-- pattern ROM or RAM (64_cartridge_mappers.md R572) -/
  | chr
  /-- nametable RAM (64_cartridge_mappers.md R576) -/
  | nametable
  /-- primary OAM (62_ppu.md R423) -/
  | oam
  /-- palette RAM (20_memory.md R95) -/
  | palette
  deriving DecidableEq, Repr

/-- One byte of a memory; a palette entry counts as a byte. -/
def State.byteAt (sp : Space) (n : Nat) (s : State) : Byte :=
  match sp with
  | .ram => s.ram.read n
  | .prgRam => s.cart.prgRam.read n
  | .prgRom => s.cart.prgRom.read n
  | .chr => s.cart.chr.read n
  | .nametable => s.ppu.ntRam.read n
  | .oam => s.ppu.oam.read n
  | .palette => ((s.ppu.palette[n]?).getD 0).setWidth 8

/-- Every byte of every memory reads as before. -/
def SameMem (s t : State) : Prop := ∀ sp n, t.byteAt sp n = s.byteAt sp n

/-- Every byte outside the listed cells reads as before. -/
def SameMemBut (cells : List (Space × Nat)) (s t : State) : Prop :=
  ∀ sp n, (sp, n) ∉ cells → t.byteAt sp n = s.byteAt sp n

/-- The state in which a write bus cycle started in `s` reaches the addressed device (20_memory.md R75). -/
def atWrite (s : State) : State := tickPpus s.params.writeSplit.val (captureInterrupts (countDown (cycleStart s)))

/-- The cell a $2007 write stores to: the byte that the VRAM address selects (20_memory.md R93 to R95, 62_ppu.md
R439). Pattern ROM stores nothing. -/
def vramCells (s : State) : List (Space × Nat) :=
  let a : BitVec 14 := s.ppu.v.setWidth 14
  if a.toNat < 0x2000 then
    if s.cart.chrIsRam then (s.cart.chrIndex a.toNat).toList.map fun i => (.chr, i) else []
  else if a.toNat < 0x3F00 then [(.nametable, ntIndex s.cart.mirroring a)]
  else [(.palette, (paletteIndex (field a 0 5)).toNat)]

/-- The cells that a write to `addr` stores to, in the state `s` in which it reaches the device (20_memory.md R77 to
R82). A write to $4014 stores to all of primary OAM, through the DMA it starts (61_dma.md R380). -/
def storeCells (addr : Word) (s : State) : List (Space × Nat) :=
  if addr.toNat < 0x2000 then [(.ram, addr.toNat % 0x800)]
  else if addr.toNat < 0x4000 then
    if addr.toNat % 8 = 4 then (if s.ppu.renderingActive then [] else [(.oam, s.ppu.oamAddr.toNat)])
    else if addr.toNat % 8 = 7 then vramCells s
    else []
  else if addr.toNat = 0x4014 then (List.range 256).map fun i => (.oam, i)
  else if addr.toNat < 0x6000 then []
  else if addr.toNat < 0x8000 then [(.prgRam, addr.toNat - 0x6000)]
  else []

/-- The cells that `Write(addr, v)` stores to from state `s`. -/
def writeCells (addr : Word) (s : State) : List (Space × Nat) := storeCells addr (atWrite s)

/-! ## Conditions -/

/-- The byte at `addr` is plain memory: internal RAM, cartridge RAM, or mapped program ROM. -/
def plainMemory (addr : Word) (s : State) : Bool :=
  decide (addr.toNat < 0x2000) || (decide (0x4020 ≤ addr.toNat) && (s.cart.cpuRead addr).isSome)

/-- No interrupt is serviced at the start of a step (60_exceptions.md R340). -/
def noService (s : State) : Bool := s.noServiceNext || !(s.nmiPending || s.irqPending)

/-- The DMC has nothing to fetch: no stall can begin before a $4015 write starts a sample. -/
def dmcQuiet (s : State) : Bool := !s.dmcRequest && s.apu.dmc.bytesLeft == 0

/-! ## Completion, as the statements say it

Each of the five says that opcode `op` is instruction `i`, and that `i` completes in state `s`: `exec` answers that next
state and no other outcome. The registers of that state are `s.cpu` with what the rule names replaced; the devices are as
the named bus cycles leave them; the memories are those of `s` but for the named cells. -/

/-- Implied mode: one dummy read at `PC`, then the registers `post`. -/
def ImpliedGives (op : Byte) (i : Instr) (s : State) (post : Cpu) : Prop :=
  i.opcode = op ∧ exec i s = .next ((dummyRead s.pc s).withCpu post) ∧ SameMem s ((dummyRead s.pc s).withCpu post)

/-- Immediate mode: no bus cycle after the operand fetch. -/
def ImmediateGives (op : Byte) (i : Instr) (s : State) (post : Cpu) : Prop :=
  i.opcode = op ∧ exec i s = .next (s.withCpu post)

/-- Read class at the address and state `ea`: the read is the last cycle, then the registers `post` of the byte read. -/
def ReadGives (op : Byte) (i : Instr) (ea : Word × State) (s : State) (post : Byte → Cpu) : Prop :=
  let r := busRead ea.1 ea.2
  let t := r.2.withCpu (post r.1)
  i.opcode = op ∧ exec i s = .next t ∧ SameMem s t

/-- Write class at the address and state `ea`: the write of `v` is the last cycle, with the registers `post`. -/
def WriteGives (op : Byte) (i : Instr) (ea : Word × State) (s : State) (v : Byte) (post : Cpu) : Prop :=
  let t := (busWrite ea.1 v ea.2).withCpu post
  i.opcode = op ∧ exec i s = .next t ∧ SameMemBut (writeCells ea.1 ea.2) s t

/-- Read-modify-write class at the address and state `ea`: read, write back the old byte, write `result` of it with the
flags `flags` of it in force, then the registers `post` of it. -/
def ModifyGives (op : Byte) (i : Instr) (ea : Word × State) (s : State) (result : Byte → Byte) (flags : Byte → Flags)
    (post : Byte → Cpu) : Prop :=
  let r := busRead ea.1 ea.2
  let w := (busWrite ea.1 r.1 r.2).withCpu { s.cpu with p := flags r.1 }
  let t := (busWrite ea.1 (result r.1) w).withCpu (post r.1)
  i.opcode = op ∧ exec i s = .next t ∧ SameMemBut (writeCells ea.1 r.2 ++ writeCells ea.1 w) s t

/-- `k` fetch cycles at `PC`, which advances with each (40_addressing.md R140, R141). -/
def fetchBytes : Nat → State → State
  | 0, s => s
  | k + 1, s => fetchBytes k (fetchOperand s).2

/-- `k` reads of a controller port with the strobe clear (20_memory.md R84). -/
def padAfter : Nat → Pad → Pad
  | 0, pad => pad
  | k + 1, pad => padAfter k (if pad.count < 8 then { shift := pad.shift >>> 1, count := pad.count + 1 } else pad)

/-- `k` ticks of the audio unit. -/
def apuTicks : Nat → Apu → Apu
  | 0, u => u
  | k + 1, u => apuTicks k u.tick

/-- `k` clocks of MMC3's counter. -/
def mmc3Clocks : Nat → Mmc3 → Mmc3
  | 0, m => m
  | k + 1, m => mmc3Clocks k m.clockCounter

/-- Which of the five variants a mapper is, by its iNES number (64_cartridge_mappers.md R575). -/
def Mapper.variant : Mapper → Nat
  | .nrom => 0
  | .mmc1 _ => 1
  | .uxrom _ => 2
  | .cnrom _ => 3
  | .mmc3 _ => 4

/-! ## Cycle counts -/

/-- The cycle count of each opcode (70_reset_and_hazards.md R660), without `+p`, a branch as not taken, JAM as 1. -/
def cycleTable : List Nat :=
  [7, 6, 1, 8, 3, 3, 5, 5, 3, 2, 2, 2, 4, 4, 6, 6]
    ++ [2, 5, 1, 8, 4, 4, 6, 6, 2, 4, 2, 7, 4, 4, 7, 7]
    ++ [6, 6, 1, 8, 3, 3, 5, 5, 4, 2, 2, 2, 4, 4, 6, 6]
    ++ [2, 5, 1, 8, 4, 4, 6, 6, 2, 4, 2, 7, 4, 4, 7, 7]
    ++ [6, 6, 1, 8, 3, 3, 5, 5, 3, 2, 2, 2, 3, 4, 6, 6]
    ++ [2, 5, 1, 8, 4, 4, 6, 6, 2, 4, 2, 7, 4, 4, 7, 7]
    ++ [6, 6, 1, 8, 3, 3, 5, 5, 4, 2, 2, 2, 5, 4, 6, 6]
    ++ [2, 5, 1, 8, 4, 4, 6, 6, 2, 4, 2, 7, 4, 4, 7, 7]
    ++ [2, 6, 2, 6, 3, 3, 3, 3, 2, 2, 2, 2, 4, 4, 4, 4]
    ++ [2, 6, 1, 6, 4, 4, 4, 4, 2, 5, 2, 5, 5, 5, 5, 5]
    ++ [2, 6, 2, 6, 3, 3, 3, 3, 2, 2, 2, 2, 4, 4, 4, 4]
    ++ [2, 5, 1, 5, 4, 4, 4, 4, 2, 4, 2, 4, 4, 4, 4, 4]
    ++ [2, 6, 2, 8, 3, 3, 5, 5, 2, 2, 2, 2, 4, 4, 6, 6]
    ++ [2, 5, 1, 8, 4, 4, 6, 6, 2, 4, 2, 7, 4, 4, 7, 7]
    ++ [2, 6, 2, 8, 3, 3, 5, 5, 2, 2, 2, 2, 4, 4, 6, 6]
    ++ [2, 5, 1, 8, 4, 4, 6, 6, 2, 4, 2, 7, 4, 4, 7, 7]

/-- An indexed address of this instruction crosses a page (40_addressing.md R150). -/
def pageCrossed (i : Instr) (s : State) : Bool :=
  let b := i.operands.headD 0
  match (descriptor i.opcode).mode with
  | .abx => crosses b s.x
  | .aby => crosses b s.y
  | .izy => crosses (s.ram.read b.toNat) s.y
  | _ => false

/-- The condition of a branch (43_control_flags.md R251 to R258). -/
def branchTaken (k : Kind) (f : Flags) : Bool :=
  match k with
  | .bpl => !f.n
  | .bmi => f.n
  | .bvc => !f.v
  | .bvs => f.v
  | .bcc => !f.c
  | .bcs => f.c
  | .bne => !f.z
  | .beq => f.z
  | _ => false

/-- What R660 adds: one cycle for a read-class page crossing, one or two for a branch taken (R250). -/
def extraCycles (i : Instr) (s : State) : Nat :=
  let d := descriptor i.opcode
  if d.cls = .read then (if pageCrossed i s then 1 else 0)
  else if branchTaken d.kind s.p then
    (if hi8 (branchTarget s.pc (i.operands.headD 0)) = hi8 s.pc then 1 else 2)
  else 0

/-- The instruction halts the session in this state (60_exceptions.md R340). -/
def haltsIn (i : Instr) (s : State) : Bool := isJam i.opcode || (s.params.unstableFatal && isUnstable i.opcode)

/-- The address and state that the addressing mode of an instruction gives (40_addressing.md R142 to R149). -/
def addressOf (i : Instr) (s : State) : Word × State :=
  let b := i.operands.headD 0
  let hi := i.operands.getD 1 0
  let cls := (descriptor i.opcode).cls
  match (descriptor i.opcode).mode with
  | .zp => eaZp b s
  | .zpx => eaZpx b s
  | .zpy => eaZpy b s
  | .abs => eaAbs b hi s
  | .abx => eaAbx cls b hi s
  | .aby => eaAby cls b hi s
  | .izx => eaIzx b s
  | .izy => eaIzy cls b s
  | _ => (0, s)

/-- The value that an opcode of the store-high family masks (44_unofficial.md R316 to R319). -/
def storeHighSource (k : Kind) (s : State) : Byte :=
  match k with
  | .shx => s.x
  | .shy => s.y
  | _ => s.a &&& s.x

/-- The address an instruction of the write or read-modify-write class stores to: `ea`, but in the store-high family
with the high byte replaced on a page crossing (44_unofficial.md R306). -/
def storeAddressOf (i : Instr) (s : State) : Word :=
  let k := (descriptor i.opcode).kind
  let ea := (addressOf i s).1
  if (k = .sha ∨ k = .shx ∨ k = .shy ∨ k = .tas) ∧ pageCrossed i s then
    -- `ea` carries the base's high byte plus one, which is the mask of R306
    mk16 (storeHighSource k s &&& hi8 ea) (lo8 ea)
  else ea

/-! ## The invariant of a safe run -/

/-- Primary OAM: 256 bytes, and no attribute bit that does not exist (62_ppu.md R423). -/
def oamOk (m : Memory) : Bool :=
  m.wf && m.below 256 && m.all fun c => oamKeep (BitVec.ofNat 8 c.1) c.2 == c.2

/-- The frame buffer: 256 by 240 colour indexes (62_ppu.md R424). -/
def frameOk (m : Memory) : Bool := m.wf && m.below 61440 && m.all fun c => decide (c.2.toNat < 64)

/-- Sprite evaluation stays within primary and secondary OAM (62_ppu.md R462). -/
def SpriteEval.ok (e : SpriteEval) : Bool :=
  decide (e.found ≤ 8) && decide (e.copy ≤ 3) && (e.done || decide (e.n < 64)) && (e.copy == 0 || decide (e.found < 8))

/-- The picture unit: its position, its memories and its sprite counts stay in range (62_ppu.md R420 to R424). -/
def Ppu.ok (header : Mirroring) (p : Ppu) : Bool :=
  decide (p.dot ≤ 340) && decide (p.scanline ≤ 261) && oamOk p.oam && frameOk p.frame
    && p.ntRam.wf && p.ntRam.below (vramSize header) && decide (p.sprCount ≤ 8) && p.eval.ok

/-- The DMC: a bit count of 1 to 8, a timer below its longest period, sample addresses in the cartridge (63_apu.md
R503, R520, R522, R541). -/
def Dmc.ok (d : Dmc) : Bool :=
  decide (1 ≤ d.bitsLeft) && decide (d.bitsLeft ≤ 8) && decide (d.timer.toNat ≤ 427)
    && decide (0x8000 ≤ d.curAddr.toNat) && decide (0xC000 ≤ d.sampleAddr.toNat) && d.sampleLen != 0

/-- The audio unit: a disabled channel has length 0 (63_apu.md R511), the noise shift register never becomes 0 (R517),
delays in range (R504). -/
def Apu.ok (u : Apu) : Bool :=
  (u.p1.enabled || u.p1.length == 0) && (u.p2.enabled || u.p2.length == 0) && (u.tri.enabled || u.tri.length == 0)
    && (u.noise.enabled || u.noise.length == 0) && u.noise.lfsr != 0 && decide (u.noise.timer.toNat ≤ 4067)
    && decide (u.fcDelay ≤ 3) && u.dmc.ok

/-- The mapper: MMC1's shift register keeps its marker bit, and no recorded cycle lies in the future
(64_cartridge_mappers.md R590, R591, R593, R614). -/
def Mapper.ok (now : Nat) (m : Mapper) : Bool :=
  match m with
  | .mmc1 r => r.shift != 0 && r.lastWrite.all fun t => decide (t ≤ now)
  | .mmc3 r => decide (r.a12LowAt ≤ now)
  | _ => true

/-- The cartridge: its memories within their sizes, four-screen mirroring only where the header gives it
(64_cartridge_mappers.md R572 to R574). -/
def Cart.ok (now : Nat) (c : Cart) : Bool :=
  c.prgRom.wf && c.prgRam.wf && c.prgRam.below 8192 && c.chr.wf && (!c.chrIsRam || c.chr.below 8192)
    && (c.mirroring != .fourScreen || c.headerMirroring == .fourScreen) && c.mapper.ok now

/-- What holds at every point of a step: every memory canonical and within its size, every counter in its range. -/
def devicesOk (s : State) : Bool :=
  s.ram.wf && s.ram.below 2048 && s.ppu.ok s.cart.headerMirroring && s.apu.ok && s.cart.ok s.cycles
    && decide (s.pad1.count ≤ 8) && decide (s.pad2.count ≤ 8) && decide (s.dmaDelay ≤ 3)

/-- The invariant that every step keeps: `devicesOk`, and the NMI line as the CPU last saw it is the picture unit's
output (60_exceptions.md R342). -/
def runInv (s : State) : Bool := devicesOk s && s.nmiLine == s.ppu.nmiOutput

end Sys2Proof.Machine
end

