-- ==== Sys2Proof/Certificates/Slice0/Obligations.lean ====
section
/-! DEFINITION. The statements about this machine, for the provers; OBLIGATIONS.json lists them. -/

open Sys2Proof Sys2Proof.Machine

/-- R180 to R182: `A <- v; setNZ(A)`, and so for `X` and `Y`, with every encoding and the frame. -/
def Obligations.LoadResults : Prop :=
  ∀ (s : State) (b lo hi : Byte),
    (∀ f ∈ ([(0xA1, .ldaIzx b, eaIzx b s), (0xA5, .ldaZp b, eaZp b s),
       (0xAD, .ldaAbs lo hi, eaAbs lo hi s), (0xB1, .ldaIzy b, eaIzy .read b s),
       (0xB5, .ldaZpx b, eaZpx b s), (0xB9, .ldaAby lo hi, eaAby .read lo hi s),
       (0xBD, .ldaAbx lo hi, eaAbx .read lo hi s)] : List (Byte × Instr × Word × State)),
      ReadGives f.1 f.2.1 f.2.2 s fun v => { s.cpu with a := v, p := { s.p with n := (v).getLsbD 7, z := (v) == 0 } }) ∧
    ImmediateGives 0xA9 (.ldaImm b) s { s.cpu with a := b, p := { s.p with n := (b).getLsbD 7, z := (b) == 0 } } ∧
    (∀ f ∈ ([(0xA6, .ldxZp b, eaZp b s), (0xAE, .ldxAbs lo hi, eaAbs lo hi s),
       (0xB6, .ldxZpy b, eaZpy b s), (0xBE, .ldxAby lo hi, eaAby .read lo hi s)] : List (Byte × Instr × Word × State)),
      ReadGives f.1 f.2.1 f.2.2 s fun v => { s.cpu with x := v, p := { s.p with n := (v).getLsbD 7, z := (v) == 0 } }) ∧
    ImmediateGives 0xA2 (.ldxImm b) s { s.cpu with x := b, p := { s.p with n := (b).getLsbD 7, z := (b) == 0 } } ∧
    (∀ f ∈ ([(0xA4, .ldyZp b, eaZp b s), (0xAC, .ldyAbs lo hi, eaAbs lo hi s),
       (0xB4, .ldyZpx b, eaZpx b s), (0xBC, .ldyAbx lo hi, eaAbx .read lo hi s)] : List (Byte × Instr × Word × State)),
      ReadGives f.1 f.2.1 f.2.2 s fun v => { s.cpu with y := v, p := { s.p with n := (v).getLsbD 7, z := (v) == 0 } }) ∧
    ImmediateGives 0xA0 (.ldyImm b) s { s.cpu with y := b, p := { s.p with n := (b).getLsbD 7, z := (b) == 0 } }

/-- R183 to R185: `Write(ea, A)`, and so for `X` and `Y`. -/
def Obligations.StoreResults : Prop :=
  ∀ (s : State) (b lo hi : Byte),
    (∀ f ∈ ([(0x81, .staIzx b, eaIzx b s), (0x85, .staZp b, eaZp b s),
       (0x8D, .staAbs lo hi, eaAbs lo hi s), (0x91, .staIzy b, eaIzy .write b s),
       (0x95, .staZpx b, eaZpx b s), (0x99, .staAby lo hi, eaAby .write lo hi s),
       (0x9D, .staAbx lo hi, eaAbx .write lo hi s)] : List (Byte × Instr × Word × State)),
      WriteGives f.1 f.2.1 f.2.2 s (s.a) s.cpu) ∧
    (∀ f ∈ ([(0x86, .stxZp b, eaZp b s), (0x8E, .stxAbs lo hi, eaAbs lo hi s), (0x96, .stxZpy b, eaZpy b s)] : List (Byte × Instr × Word × State)),
      WriteGives f.1 f.2.1 f.2.2 s (s.x) s.cpu) ∧
    (∀ f ∈ ([(0x84, .styZp b, eaZp b s), (0x8C, .styAbs lo hi, eaAbs lo hi s), (0x94, .styZpx b, eaZpx b s)] : List (Byte × Instr × Word × State)),
      WriteGives f.1 f.2.1 f.2.2 s (s.y) s.cpu)

/-- R186 to R191. -/
def Obligations.TransferResults : Prop :=
  ∀ s : State,
    ImpliedGives 0xAA .tax s { s.cpu with x := s.a, p := { s.p with n := (s.a).getLsbD 7, z := (s.a) == 0 } } ∧
    ImpliedGives 0xA8 .tay s { s.cpu with y := s.a, p := { s.p with n := (s.a).getLsbD 7, z := (s.a) == 0 } } ∧
    ImpliedGives 0x8A .txa s { s.cpu with a := s.x, p := { s.p with n := (s.x).getLsbD 7, z := (s.x) == 0 } } ∧
    ImpliedGives 0x98 .tya s { s.cpu with a := s.y, p := { s.p with n := (s.y).getLsbD 7, z := (s.y) == 0 } } ∧
    ImpliedGives 0xBA .tsx s { s.cpu with x := s.s, p := { s.p with n := (s.s).getLsbD 7, z := (s.s) == 0 } } ∧
    ImpliedGives 0x9A .txs s { s.cpu with s := s.x }

/-- R192 to R195, with the bus cycles that each rule lists. -/
def Obligations.StackResults : Prop :=
  ∀ s : State,
    (let t := (push s.a (dummyRead s.pc s)).withCpu { s.cpu with s := s.s - 1 }
     Instr.pha.opcode = 0x48 ∧ exec .pha s = .next t ∧ SameMemBut [(.ram, 256 + s.s.toNat)] s t ∧
       (s.ram.wf → t.ram.read (256 + s.s.toNat) = s.a)) ∧
    (let t := (push (s.p.pushed true) (dummyRead s.pc s)).withCpu { s.cpu with s := s.s - 1 }
     Instr.php.opcode = 0x08 ∧ exec .php s = .next t ∧ SameMemBut [(.ram, 256 + s.s.toNat)] s t ∧
       (s.ram.wf → t.ram.read (256 + s.s.toNat) = s.p.pushed true)) ∧
    (let v := s.ram.read (256 + (s.s + 1).toNat)
     let t := (pull (dummyStackRead (dummyRead s.pc s))).2.withCpu
       { s.cpu with s := s.s + 1, a := v, p := { s.p with n := v.getLsbD 7, z := v == 0 } }
     Instr.pla.opcode = 0x68 ∧ exec .pla s = .next t ∧ SameMem s t) ∧
    (let v := s.ram.read (256 + (s.s + 1).toNat)
     let t := (pull (dummyStackRead (dummyRead s.pc s))).2.withCpu
       { s.cpu with
         s := s.s + 1
         p := { n := v.getLsbD 7, v := v.getLsbD 6, d := v.getLsbD 3, i := v.getLsbD 2, z := v.getLsbD 1, c := v.getLsbD 0 } }
     Instr.plp.opcode = 0x28 ∧ exec .plp s = .next t ∧ SameMem s t)

/-- R211 to R213 and R300: `A <- AddWithCarry(A, v, C)`, spelled out. -/
def Obligations.AddSubtractResults : Prop :=
  ∀ (s : State) (b lo hi : Byte),
    let add (v : Byte) : Cpu :=
      let sum := s.a.toNat + v.toNat + s.p.c.toNat
      let r : Byte := BitVec.ofNat 8 sum
      { s.cpu with
        a := r
        p := { s.p with
          c := decide (255 < sum), v := ((s.a ^^^ r) &&& (v ^^^ r)).getLsbD 7, n := r.getLsbD 7, z := r == 0 } }
    (∀ f ∈ ([(0x61, .adcIzx b, eaIzx b s), (0x65, .adcZp b, eaZp b s),
       (0x6D, .adcAbs lo hi, eaAbs lo hi s), (0x71, .adcIzy b, eaIzy .read b s),
       (0x75, .adcZpx b, eaZpx b s), (0x79, .adcAby lo hi, eaAby .read lo hi s),
       (0x7D, .adcAbx lo hi, eaAbx .read lo hi s)] : List (Byte × Instr × Word × State)),
      ReadGives f.1 f.2.1 f.2.2 s fun v => add v) ∧
    ImmediateGives 0x69 (.adcImm b) s (add b) ∧
    (∀ f ∈ ([(0xE1, .sbcIzx b, eaIzx b s), (0xE5, .sbcZp b, eaZp b s),
       (0xED, .sbcAbs lo hi, eaAbs lo hi s), (0xF1, .sbcIzy b, eaIzy .read b s),
       (0xF5, .sbcZpx b, eaZpx b s), (0xF9, .sbcAby lo hi, eaAby .read lo hi s),
       (0xFD, .sbcAbx lo hi, eaAbx .read lo hi s)] : List (Byte × Instr × Word × State)),
      ReadGives f.1 f.2.1 f.2.2 s fun v => add (v ^^^ 0xFF)) ∧
    ImmediateGives 0xE9 (.sbcImm b) s (add (b ^^^ 0xFF)) ∧
    ImmediateGives 0xEB (.sbcImmEB b) s (add (b ^^^ 0xFF))

/-- R210: what the flags of an addition and a subtraction report. -/
def Obligations.ArithmeticMeaning : Prop :=
  ∀ (a v : Byte) (c : Bool) (f : Flags),
    (let r := addResult a v c
     let g := f.addWithCarry a v c
     let exact : Int := a.toInt + v.toInt + c.toNat
     r.toNat = (a.toNat + v.toNat + c.toNat) % 256 ∧ (g.c = true ↔ 255 < a.toNat + v.toNat + c.toNat) ∧
       (g.v = true ↔ exact < -128 ∨ 127 < exact) ∧ (g.n = true ↔ 128 ≤ r.toNat) ∧ (g.z = true ↔ r.toNat = 0) ∧
       g.d = f.d ∧ g.i = f.i) ∧
    (let r := addResult a (v ^^^ 0xFF) c
     let g := f.addWithCarry a (v ^^^ 0xFF) c
     let borrow : Int := 1 - c.toNat
     let exact : Int := a.toInt - v.toInt - borrow
     (r.toNat : Int) = ((a.toNat : Int) - v.toNat - borrow) % 256 ∧ (g.c = true ↔ borrow + v.toNat ≤ a.toNat) ∧
       (g.v = true ↔ exact < -128 ∨ 127 < exact))

/-- R214 to R216. -/
def Obligations.LogicResults : Prop :=
  ∀ (s : State) (b lo hi : Byte),
    (∀ f ∈ ([(0x21, .andIzx b, eaIzx b s), (0x25, .andZp b, eaZp b s),
       (0x2D, .andAbs lo hi, eaAbs lo hi s), (0x31, .andIzy b, eaIzy .read b s),
       (0x35, .andZpx b, eaZpx b s), (0x39, .andAby lo hi, eaAby .read lo hi s),
       (0x3D, .andAbx lo hi, eaAbx .read lo hi s)] : List (Byte × Instr × Word × State)),
      ReadGives f.1 f.2.1 f.2.2 s fun v => { s.cpu with a := s.a &&& v, p := { s.p with n := (s.a &&& v).getLsbD 7, z := (s.a &&& v) == 0 } }) ∧
    ImmediateGives 0x29 (.andImm b) s { s.cpu with a := s.a &&& b, p := { s.p with n := (s.a &&& b).getLsbD 7, z := (s.a &&& b) == 0 } } ∧
    (∀ f ∈ ([(0x01, .oraIzx b, eaIzx b s), (0x05, .oraZp b, eaZp b s),
       (0x0D, .oraAbs lo hi, eaAbs lo hi s), (0x11, .oraIzy b, eaIzy .read b s),
       (0x15, .oraZpx b, eaZpx b s), (0x19, .oraAby lo hi, eaAby .read lo hi s),
       (0x1D, .oraAbx lo hi, eaAbx .read lo hi s)] : List (Byte × Instr × Word × State)),
      ReadGives f.1 f.2.1 f.2.2 s fun v => { s.cpu with a := s.a ||| v, p := { s.p with n := (s.a ||| v).getLsbD 7, z := (s.a ||| v) == 0 } }) ∧
    ImmediateGives 0x09 (.oraImm b) s { s.cpu with a := s.a ||| b, p := { s.p with n := (s.a ||| b).getLsbD 7, z := (s.a ||| b) == 0 } } ∧
    (∀ f ∈ ([(0x41, .eorIzx b, eaIzx b s), (0x45, .eorZp b, eaZp b s),
       (0x4D, .eorAbs lo hi, eaAbs lo hi s), (0x51, .eorIzy b, eaIzy .read b s),
       (0x55, .eorZpx b, eaZpx b s), (0x59, .eorAby lo hi, eaAby .read lo hi s),
       (0x5D, .eorAbx lo hi, eaAbx .read lo hi s)] : List (Byte × Instr × Word × State)),
      ReadGives f.1 f.2.1 f.2.2 s fun v => { s.cpu with a := s.a ^^^ v, p := { s.p with n := (s.a ^^^ v).getLsbD 7, z := (s.a ^^^ v) == 0 } }) ∧
    ImmediateGives 0x49 (.eorImm b) s { s.cpu with a := s.a ^^^ b, p := { s.p with n := (s.a ^^^ b).getLsbD 7, z := (s.a ^^^ b) == 0 } }

/-- R217 to R220 with `Compare` of R211 spelled out. -/
def Obligations.CompareResults : Prop :=
  ∀ (s : State) (b lo hi : Byte),
    let compare (reg v : Byte) : Cpu :=
      { s.cpu with p := { s.p with c := decide (v.toNat ≤ reg.toNat), n := (reg - v).getLsbD 7, z := (reg - v) == 0 } }
    (∀ f ∈ ([(0xC1, .cmpIzx b, eaIzx b s), (0xC5, .cmpZp b, eaZp b s),
       (0xCD, .cmpAbs lo hi, eaAbs lo hi s), (0xD1, .cmpIzy b, eaIzy .read b s),
       (0xD5, .cmpZpx b, eaZpx b s), (0xD9, .cmpAby lo hi, eaAby .read lo hi s),
       (0xDD, .cmpAbx lo hi, eaAbx .read lo hi s)] : List (Byte × Instr × Word × State)),
      ReadGives f.1 f.2.1 f.2.2 s fun v => compare s.a v) ∧
    ImmediateGives 0xC9 (.cmpImm b) s (compare s.a b) ∧
    (∀ f ∈ ([(0xE4, .cpxZp b, eaZp b s), (0xEC, .cpxAbs lo hi, eaAbs lo hi s)] : List (Byte × Instr × Word × State)),
      ReadGives f.1 f.2.1 f.2.2 s fun v => compare s.x v) ∧
    ImmediateGives 0xE0 (.cpxImm b) s (compare s.x b) ∧
    (∀ f ∈ ([(0xC4, .cpyZp b, eaZp b s), (0xCC, .cpyAbs lo hi, eaAbs lo hi s)] : List (Byte × Instr × Word × State)),
      ReadGives f.1 f.2.1 f.2.2 s fun v => compare s.y v) ∧
    ImmediateGives 0xC0 (.cpyImm b) s (compare s.y b) ∧
    (∀ f ∈ ([(0x24, .bitZp b, eaZp b s), (0x2C, .bitAbs lo hi, eaAbs lo hi s)] : List (Byte × Instr × Word × State)),
      ReadGives f.1 f.2.1 f.2.2 s fun v => { s.cpu with p := { s.p with z := (s.a &&& v) == 0, n := v.getLsbD 7, v := v.getLsbD 6 } })

/-- R221 to R226. -/
def Obligations.IncrementResults : Prop :=
  ∀ (s : State) (b lo hi : Byte),
    (∀ f ∈ ([(0xE6, .incZp b, eaZp b s), (0xEE, .incAbs lo hi, eaAbs lo hi s),
       (0xF6, .incZpx b, eaZpx b s), (0xFE, .incAbx lo hi, eaAbx .rmw lo hi s)] : List (Byte × Instr × Word × State)),
      ModifyGives f.1 f.2.1 f.2.2 s (fun v => v + 1) (fun v => { s.p with n := (v + 1).getLsbD 7, z := (v + 1) == 0 })
        fun v => { s.cpu with p := { s.p with n := (v + 1).getLsbD 7, z := (v + 1) == 0 } }) ∧
    (∀ f ∈ ([(0xC6, .decZp b, eaZp b s), (0xCE, .decAbs lo hi, eaAbs lo hi s),
       (0xD6, .decZpx b, eaZpx b s), (0xDE, .decAbx lo hi, eaAbx .rmw lo hi s)] : List (Byte × Instr × Word × State)),
      ModifyGives f.1 f.2.1 f.2.2 s (fun v => v - 1) (fun v => { s.p with n := (v - 1).getLsbD 7, z := (v - 1) == 0 })
        fun v => { s.cpu with p := { s.p with n := (v - 1).getLsbD 7, z := (v - 1) == 0 } }) ∧
    ImpliedGives 0xE8 .inx s { s.cpu with x := s.x + 1, p := { s.p with n := (s.x + 1).getLsbD 7, z := (s.x + 1) == 0 } } ∧
    ImpliedGives 0xC8 .iny s { s.cpu with y := s.y + 1, p := { s.p with n := (s.y + 1).getLsbD 7, z := (s.y + 1) == 0 } } ∧
    ImpliedGives 0xCA .dex s { s.cpu with x := s.x - 1, p := { s.p with n := (s.x - 1).getLsbD 7, z := (s.x - 1) == 0 } } ∧
    ImpliedGives 0x88 .dey s { s.cpu with y := s.y - 1, p := { s.p with n := (s.y - 1).getLsbD 7, z := (s.y - 1) == 0 } }

/-- R227 to R230 with `ShiftLeft` and `ShiftRight` of R211 spelled out. -/
def Obligations.ShiftResults : Prop :=
  ∀ (s : State) (b lo hi : Byte),
    let left (c : Bool) (v : Byte) : Byte := (v <<< 1) ||| (if c then 1 else 0)
    let right (c : Bool) (v : Byte) : Byte := (v >>> 1) ||| (if c then 0x80 else 0)
    let flags (out : Bool) (r : Byte) : Flags := { s.p with c := out, n := r.getLsbD 7, z := r == 0 }
    (∀ f ∈ ([(0x06, .aslZp b, eaZp b s), (0x0E, .aslAbs lo hi, eaAbs lo hi s),
       (0x16, .aslZpx b, eaZpx b s), (0x1E, .aslAbx lo hi, eaAbx .rmw lo hi s)] : List (Byte × Instr × Word × State)),
      ModifyGives f.1 f.2.1 f.2.2 s (fun v => left false v) (fun v => flags (v.getLsbD 7) (left false v))
        fun v => { s.cpu with p := flags (v.getLsbD 7) (left false v) }) ∧
    ImpliedGives 0x0A .aslAcc s { s.cpu with a := left false s.a, p := flags (s.a.getLsbD 7) (left false s.a) } ∧
    (∀ f ∈ ([(0x46, .lsrZp b, eaZp b s), (0x4E, .lsrAbs lo hi, eaAbs lo hi s),
       (0x56, .lsrZpx b, eaZpx b s), (0x5E, .lsrAbx lo hi, eaAbx .rmw lo hi s)] : List (Byte × Instr × Word × State)),
      ModifyGives f.1 f.2.1 f.2.2 s (fun v => right false v) (fun v => flags (v.getLsbD 0) (right false v))
        fun v => { s.cpu with p := flags (v.getLsbD 0) (right false v) }) ∧
    ImpliedGives 0x4A .lsrAcc s { s.cpu with a := right false s.a, p := flags (s.a.getLsbD 0) (right false s.a) } ∧
    (∀ f ∈ ([(0x26, .rolZp b, eaZp b s), (0x2E, .rolAbs lo hi, eaAbs lo hi s),
       (0x36, .rolZpx b, eaZpx b s), (0x3E, .rolAbx lo hi, eaAbx .rmw lo hi s)] : List (Byte × Instr × Word × State)),
      ModifyGives f.1 f.2.1 f.2.2 s (fun v => left s.p.c v) (fun v => flags (v.getLsbD 7) (left s.p.c v))
        fun v => { s.cpu with p := flags (v.getLsbD 7) (left s.p.c v) }) ∧
    ImpliedGives 0x2A .rolAcc s { s.cpu with a := left s.p.c s.a, p := flags (s.a.getLsbD 7) (left s.p.c s.a) } ∧
    (∀ f ∈ ([(0x66, .rorZp b, eaZp b s), (0x6E, .rorAbs lo hi, eaAbs lo hi s),
       (0x76, .rorZpx b, eaZpx b s), (0x7E, .rorAbx lo hi, eaAbx .rmw lo hi s)] : List (Byte × Instr × Word × State)),
      ModifyGives f.1 f.2.1 f.2.2 s (fun v => right s.p.c v) (fun v => flags (v.getLsbD 0) (right s.p.c v))
        fun v => { s.cpu with p := flags (v.getLsbD 0) (right s.p.c v) }) ∧
    ImpliedGives 0x6A .rorAcc s { s.cpu with a := right s.p.c s.a, p := flags (s.a.getLsbD 0) (right s.p.c s.a) }

/-- R250 to R258. -/
def Obligations.BranchResults : Prop :=
  ∀ (s : State) (b : Byte),
    ∀ f ∈ ([(0x10, .bpl b, !s.p.n), (0x30, .bmi b, s.p.n), (0x50, .bvc b, !s.p.v), (0x70, .bvs b, s.p.v),
       (0x90, .bcc b, !s.p.c), (0xB0, .bcs b, s.p.c), (0xD0, .bne b, !s.p.z), (0xF0, .beq b, s.p.z)] : List (Byte × Instr × Bool)),
      let t := s.pc + b.signExtend 16
      let u :=
        if f.2.2 then
          (if t.extractLsb' 8 8 = s.pc.extractLsb' 8 8 then (busReadWith true s.pc s).2
            else dummyRead (s.pc.extractLsb' 8 8 ++ t.extractLsb' 0 8) (dummyRead s.pc s)).withCpu { s.cpu with pc := t }
        else s
      f.2.1.opcode = f.1 ∧ exec f.2.1 s = .next u ∧ SameMem s u

/-- R259 to R261. The meaning of JSR starts after two of its three bytes (log entry 14); its target has the high
byte that the bus gives after the pushes. -/
def Obligations.JumpCallReturnResults : Prop :=
  ∀ (s : State) (lo hi : Byte),
    (Instr.opcode (.jmpAbs lo hi) = 0x4C ∧ exec (.jmpAbs lo hi) s = .next (s.withCpu { s.cpu with pc := hi ++ lo })) ∧
    (let tl := busRead (hi ++ lo) s
     let th := busRead (hi ++ (lo + 1)) tl.2
     let t := th.2.withCpu { s.cpu with pc := th.1 ++ tl.1 }
     Instr.opcode (.jmpInd lo hi) = 0x6C ∧ exec (.jmpInd lo hi) s = .next t ∧ SameMem s t) ∧
    (let s1 := push (lo8 s.pc) (push (hi8 s.pc) (dummyStackRead s))
     let h := busRead s.pc s1
     let t := h.2.withCpu { s.cpu with s := s.s - 2, pc := h.1 ++ lo }
     Instr.opcode (.jsr (hi ++ lo)) = 0x20 ∧ exec (.jsr (hi ++ lo)) s = .next t ∧
       SameMemBut [(.ram, 256 + s.s.toNat), (.ram, 256 + (s.s - 1).toNat)] s t ∧
       (s.ram.wf → t.ram.read (256 + s.s.toNat) = hi8 s.pc ∧ t.ram.read (256 + (s.s - 1).toNat) = lo8 s.pc)) ∧
    (let l := s.ram.read (256 + (s.s + 1).toNat)
     let h := s.ram.read (256 + (s.s + 2).toNat)
     let s1 := (pull (pull (dummyStackRead (dummyRead s.pc s))).2).2
     let t := (dummyRead (h ++ l) s1).withCpu { s.cpu with s := s.s + 2, pc := (h ++ l) + 1 }
     Instr.rts.opcode = 0x60 ∧ exec .rts s = .next t ∧ SameMem s t)

/-- R262 with `SelectVector` of R347. -/
def Obligations.BreakEntersHandler : Prop :=
  ∀ s : State,
    let s1 := (fetchOperand s).2
    let s2 := push (s.p.pushed true) (push (lo8 (s.pc + 1)) (push (hi8 (s.pc + 1)) s1))
    let vec : Word := if s2.nmiPending then 0xFFFA#16 else 0xFFFE#16
    let l := busRead vec { s2 with nmiPending := false, p := { s.p with i := true } }
    let h := busRead (vec + 1) l.2
    let t := h.2.withCpu
      { s.cpu with s := s.s - 3, pc := h.1 ++ l.1, p := { s.p with i := true }, noServiceNext := true }
    Instr.brk.opcode = 0x00 ∧ exec .brk s = .next t ∧
      SameMemBut [(.ram, 256 + s.s.toNat), (.ram, 256 + (s.s - 1).toNat), (.ram, 256 + (s.s - 2).toNat)] s t ∧
      (s.ram.wf →
        t.ram.read (256 + s.s.toNat) = hi8 (s.pc + 1) ∧ t.ram.read (256 + (s.s - 1).toNat) = lo8 (s.pc + 1) ∧
          t.ram.read (256 + (s.s - 2).toNat) = s.p.pushed true)

/-- R346 and R347. -/
def Obligations.InterruptEntersHandler : Prop :=
  ∀ s : State,
    let s1 := dummyRead s.pc (dummyRead s.pc s)
    let s2 := push (s.p.pushed false) (push (lo8 s.pc) (push (hi8 s.pc) s1))
    let vec : Word := if s2.nmiPending then 0xFFFA#16 else 0xFFFE#16
    let l := busRead vec { s2 with nmiPending := false, p := { s.p with i := true } }
    let h := busRead (vec + 1) l.2
    let t := h.2.withCpu
      { s.cpu with s := s.s - 3, pc := h.1 ++ l.1, p := { s.p with i := true } }
    interruptSequence s = t ∧
      SameMemBut [(.ram, 256 + s.s.toNat), (.ram, 256 + (s.s - 1).toNat), (.ram, 256 + (s.s - 2).toNat)] s t ∧
      (s.ram.wf →
        t.ram.read (256 + s.s.toNat) = hi8 s.pc ∧ t.ram.read (256 + (s.s - 1).toNat) = lo8 s.pc ∧
          t.ram.read (256 + (s.s - 2).toNat) = s.p.pushed false)

/-- R263. -/
def Obligations.ReturnFromInterruptRestores : Prop :=
  ∀ s : State,
    let v := s.ram.read (256 + (s.s + 1).toNat)
    let l := s.ram.read (256 + (s.s + 2).toNat)
    let h := s.ram.read (256 + (s.s + 3).toNat)
    let f : Flags :=
      { n := v.getLsbD 7, v := v.getLsbD 6, d := v.getLsbD 3, i := v.getLsbD 2, z := v.getLsbD 1, c := v.getLsbD 0 }
    let s1 := (pull (dummyStackRead (dummyRead s.pc s))).2
    let s2 := (pull (pull (s1.withCpu { s1.cpu with p := f })).2).2
    let t := s2.withCpu { s.cpu with s := s.s + 3, pc := h ++ l, p := f }
    Instr.rti.opcode = 0x40 ∧ exec .rti s = .next t ∧ SameMem s t

/-- R264 to R271 and R299. -/
def Obligations.FlagAndNopResults : Prop :=
  ∀ (s : State) (b lo hi : Byte),
    ImpliedGives 0x18 .clc s { s.cpu with p := { s.p with c := false } } ∧
    ImpliedGives 0x38 .sec s { s.cpu with p := { s.p with c := true } } ∧
    ImpliedGives 0x58 .cli s { s.cpu with p := { s.p with i := false } } ∧
    ImpliedGives 0x78 .sei s { s.cpu with p := { s.p with i := true } } ∧
    ImpliedGives 0xB8 .clv s { s.cpu with p := { s.p with v := false } } ∧
    ImpliedGives 0xD8 .cld s { s.cpu with p := { s.p with d := false } } ∧
    ImpliedGives 0xF8 .sed s { s.cpu with p := { s.p with d := true } } ∧
    ImpliedGives 0x1A .nopImp1A s s.cpu ∧
    ImpliedGives 0x3A .nopImp3A s s.cpu ∧
    ImpliedGives 0x5A .nopImp5A s s.cpu ∧
    ImpliedGives 0x7A .nopImp7A s s.cpu ∧
    ImpliedGives 0xDA .nopImpDA s s.cpu ∧
    ImpliedGives 0xEA .nop s s.cpu ∧
    ImpliedGives 0xFA .nopImpFA s s.cpu ∧
    ImmediateGives 0x80 (.nopImm80 b) s s.cpu ∧
    ImmediateGives 0x82 (.nopImm82 b) s s.cpu ∧
    ImmediateGives 0x89 (.nopImm89 b) s s.cpu ∧
    ImmediateGives 0xC2 (.nopImmC2 b) s s.cpu ∧
    ImmediateGives 0xE2 (.nopImmE2 b) s s.cpu ∧
    (∀ f ∈ ([(0x04, .nopZp04 b, eaZp b s), (0x0C, .nopAbs lo hi, eaAbs lo hi s),
       (0x14, .nopZpx14 b, eaZpx b s), (0x1C, .nopAbx1C lo hi, eaAbx .read lo hi s),
       (0x34, .nopZpx34 b, eaZpx b s), (0x3C, .nopAbx3C lo hi, eaAbx .read lo hi s),
       (0x44, .nopZp44 b, eaZp b s), (0x54, .nopZpx54 b, eaZpx b s),
       (0x5C, .nopAbx5C lo hi, eaAbx .read lo hi s), (0x64, .nopZp64 b, eaZp b s),
       (0x74, .nopZpx74 b, eaZpx b s), (0x7C, .nopAbx7C lo hi, eaAbx .read lo hi s),
       (0xD4, .nopZpxD4 b, eaZpx b s), (0xDC, .nopAbxDC lo hi, eaAbx .read lo hi s),
       (0xF4, .nopZpxF4 b, eaZpx b s), (0xFC, .nopAbxFC lo hi, eaAbx .read lo hi s)] : List (Byte × Instr × Word × State)),
      ReadGives f.1 f.2.1 f.2.2 s fun _ => s.cpu)

/-- R291 to R296. -/
def Obligations.CombinedModifyResults : Prop :=
  ∀ (s : State) (b lo hi : Byte),
    let left (c : Bool) (v : Byte) : Byte := (v <<< 1) ||| (if c then 1 else 0)
    let right (c : Bool) (v : Byte) : Byte := (v >>> 1) ||| (if c then 0x80 else 0)
    let flags (out : Bool) (r : Byte) : Flags := { s.p with c := out, n := r.getLsbD 7, z := r == 0 }
    let add (c : Bool) (r : Byte) : Cpu :=
      let sum := s.a.toNat + r.toNat + c.toNat
      let q : Byte := BitVec.ofNat 8 sum
      { s.cpu with
        a := q
        p := { s.p with
          c := decide (255 < sum), v := ((s.a ^^^ q) &&& (r ^^^ q)).getLsbD 7, n := q.getLsbD 7, z := q == 0 } }
    (∀ f ∈ ([(0x03, .sloIzx b, eaIzx b s), (0x07, .sloZp b, eaZp b s),
       (0x0F, .sloAbs lo hi, eaAbs lo hi s), (0x13, .sloIzy b, eaIzy .rmw b s),
       (0x17, .sloZpx b, eaZpx b s), (0x1B, .sloAby lo hi, eaAby .rmw lo hi s),
       (0x1F, .sloAbx lo hi, eaAbx .rmw lo hi s)] : List (Byte × Instr × Word × State)),
      ModifyGives f.1 f.2.1 f.2.2 s (fun v => left false v) (fun v => flags (v.getLsbD 7) (left false v))
        fun v => { s.cpu with a := s.a ||| left false v, p := flags (v.getLsbD 7) (s.a ||| left false v) }) ∧
    (∀ f ∈ ([(0x23, .rlaIzx b, eaIzx b s), (0x27, .rlaZp b, eaZp b s),
       (0x2F, .rlaAbs lo hi, eaAbs lo hi s), (0x33, .rlaIzy b, eaIzy .rmw b s),
       (0x37, .rlaZpx b, eaZpx b s), (0x3B, .rlaAby lo hi, eaAby .rmw lo hi s),
       (0x3F, .rlaAbx lo hi, eaAbx .rmw lo hi s)] : List (Byte × Instr × Word × State)),
      ModifyGives f.1 f.2.1 f.2.2 s (fun v => left s.p.c v) (fun v => flags (v.getLsbD 7) (left s.p.c v))
        fun v => { s.cpu with a := s.a &&& left s.p.c v, p := flags (v.getLsbD 7) (s.a &&& left s.p.c v) }) ∧
    (∀ f ∈ ([(0x43, .sreIzx b, eaIzx b s), (0x47, .sreZp b, eaZp b s),
       (0x4F, .sreAbs lo hi, eaAbs lo hi s), (0x53, .sreIzy b, eaIzy .rmw b s),
       (0x57, .sreZpx b, eaZpx b s), (0x5B, .sreAby lo hi, eaAby .rmw lo hi s),
       (0x5F, .sreAbx lo hi, eaAbx .rmw lo hi s)] : List (Byte × Instr × Word × State)),
      ModifyGives f.1 f.2.1 f.2.2 s (fun v => right false v) (fun v => flags (v.getLsbD 0) (right false v))
        fun v => { s.cpu with a := s.a ^^^ right false v, p := flags (v.getLsbD 0) (s.a ^^^ right false v) }) ∧
    (∀ f ∈ ([(0x63, .rraIzx b, eaIzx b s), (0x67, .rraZp b, eaZp b s),
       (0x6F, .rraAbs lo hi, eaAbs lo hi s), (0x73, .rraIzy b, eaIzy .rmw b s),
       (0x77, .rraZpx b, eaZpx b s), (0x7B, .rraAby lo hi, eaAby .rmw lo hi s),
       (0x7F, .rraAbx lo hi, eaAbx .rmw lo hi s)] : List (Byte × Instr × Word × State)),
      ModifyGives f.1 f.2.1 f.2.2 s (fun v => right s.p.c v) (fun v => flags (v.getLsbD 0) (right s.p.c v))
        fun v => add (v.getLsbD 0) (right s.p.c v)) ∧
    (∀ f ∈ ([(0xC3, .dcpIzx b, eaIzx b s), (0xC7, .dcpZp b, eaZp b s),
       (0xCF, .dcpAbs lo hi, eaAbs lo hi s), (0xD3, .dcpIzy b, eaIzy .rmw b s),
       (0xD7, .dcpZpx b, eaZpx b s), (0xDB, .dcpAby lo hi, eaAby .rmw lo hi s),
       (0xDF, .dcpAbx lo hi, eaAbx .rmw lo hi s)] : List (Byte × Instr × Word × State)),
      ModifyGives f.1 f.2.1 f.2.2 s (fun v => v - 1) (fun _ => s.p)
        fun v => { s.cpu with p := { s.p with c := decide ((v - 1).toNat ≤ s.a.toNat), n := (s.a - (v - 1)).getLsbD 7, z := (s.a - (v - 1)) == 0 } }) ∧
    (∀ f ∈ ([(0xE3, .isbIzx b, eaIzx b s), (0xE7, .isbZp b, eaZp b s),
       (0xEF, .isbAbs lo hi, eaAbs lo hi s), (0xF3, .isbIzy b, eaIzy .rmw b s),
       (0xF7, .isbZpx b, eaZpx b s), (0xFB, .isbAby lo hi, eaAby .rmw lo hi s),
       (0xFF, .isbAbx lo hi, eaAbx .rmw lo hi s)] : List (Byte × Instr × Word × State)),
      ModifyGives f.1 f.2.1 f.2.2 s (fun v => v + 1) (fun _ => s.p)
        fun v => add s.p.c ((v + 1) ^^^ 0xFF))

/-- R297, R298, R301 to R305. -/
def Obligations.UnofficialLoadStoreImmediateResults : Prop :=
  ∀ (s : State) (b lo hi : Byte),
    (∀ f ∈ ([(0xA3, .laxIzx b, eaIzx b s), (0xA7, .laxZp b, eaZp b s),
       (0xAF, .laxAbs lo hi, eaAbs lo hi s), (0xB3, .laxIzy b, eaIzy .read b s),
       (0xB7, .laxZpy b, eaZpy b s), (0xBF, .laxAby lo hi, eaAby .read lo hi s)] : List (Byte × Instr × Word × State)),
      ReadGives f.1 f.2.1 f.2.2 s fun v => { s.cpu with a := v, x := v, p := { s.p with n := (v).getLsbD 7, z := (v) == 0 } }) ∧
    (∀ f ∈ ([(0x83, .saxIzx b, eaIzx b s), (0x87, .saxZp b, eaZp b s),
       (0x8F, .saxAbs lo hi, eaAbs lo hi s), (0x97, .saxZpy b, eaZpy b s)] : List (Byte × Instr × Word × State)),
      WriteGives f.1 f.2.1 f.2.2 s (s.a &&& s.x) s.cpu) ∧
    (ReadGives 0xBB (.las lo hi) (eaAby .read lo hi s) s fun v =>
      { s.cpu with a := v &&& s.s, x := v &&& s.s, s := v &&& s.s, p := { s.p with n := (v &&& s.s).getLsbD 7, z := (v &&& s.s) == 0 } }) ∧
    ImmediateGives 0x0B (.ancImm0B b) s { s.cpu with a := s.a &&& b, p := { s.p with n := (s.a &&& b).getLsbD 7, z := (s.a &&& b) == 0, c := (s.a &&& b).getLsbD 7 } } ∧
    ImmediateGives 0x2B (.ancImm2B b) s { s.cpu with a := s.a &&& b, p := { s.p with n := (s.a &&& b).getLsbD 7, z := (s.a &&& b) == 0, c := (s.a &&& b).getLsbD 7 } } ∧
    ImmediateGives 0x4B (.alr b) s { s.cpu with a := (s.a &&& b) >>> 1, p := { s.p with n := false, z := ((s.a &&& b) >>> 1) == 0, c := (s.a &&& b).getLsbD 0 } } ∧
    (let r : Byte := ((s.a &&& b) >>> 1) ||| (if s.p.c then 0x80 else 0)
     ImmediateGives 0x6B (.arr b) s
       { s.cpu with a := r, p := { s.p with n := r.getLsbD 7, z := r == 0, c := r.getLsbD 6, v := r.getLsbD 6 ^^ r.getLsbD 5 } }) ∧
    ImmediateGives 0xCB (.axs b) s { s.cpu with x := (s.a &&& s.x) - b, p := { s.p with c := decide (b.toNat ≤ (s.a &&& s.x).toNat), n := ((s.a &&& s.x) - b).getLsbD 7, z := ((s.a &&& s.x) - b) == 0 } }

/-- R306, R314 to R319. The hypothesis is the parameter under which these rules apply (R290). -/
def Obligations.UnstableResults : Prop :=
  ∀ (s : State) (b lo hi : Byte), s.params.unstableFatal = false →
    let ane := (s.a ||| s.params.aneMagic) &&& s.x &&& b
    let lxa := (s.a ||| s.params.lxaMagic) &&& b
    let target (l h i v : Byte) : Word := (if 255 < l.toNat + i.toNat then v &&& (h + 1) else h) ++ (l + i)
    let pl := s.ram.read b.toNat
    let ph := s.ram.read (b + 1).toNat
    let dummy (i : Byte) : State := dummyRead (hi ++ (lo + i)) s
    ImmediateGives 0x8B (.ane b) s { s.cpu with a := ane, p := { s.p with n := ane.getLsbD 7, z := ane == 0 } } ∧
    ImmediateGives 0xAB (.lxa b) s { s.cpu with a := lxa, x := lxa, p := { s.p with n := lxa.getLsbD 7, z := lxa == 0 } } ∧
    WriteGives 0x93 (.shaIzy b)
      (target pl ph s.y (s.a &&& s.x), dummyRead (ph ++ (pl + s.y)) (busRead (zext16 (b + 1)) (busRead (zext16 b) s).2).2)
      s (s.a &&& s.x &&& (ph + 1)) s.cpu ∧
    WriteGives 0x9F (.shaAby lo hi) (target lo hi s.y (s.a &&& s.x), dummy s.y) s (s.a &&& s.x &&& (hi + 1)) s.cpu ∧
    WriteGives 0x9E (.shx lo hi) (target lo hi s.y s.x, dummy s.y) s (s.x &&& (hi + 1)) s.cpu ∧
    WriteGives 0x9C (.shy lo hi) (target lo hi s.x s.y, dummy s.x) s (s.y &&& (hi + 1)) s.cpu ∧
    WriteGives 0x9B (.tas lo hi)
      (target lo hi s.y (s.a &&& s.x), (dummy s.y).withCpu { s.cpu with s := s.a &&& s.x }) s (s.a &&& s.x &&& (hi + 1))
      { s.cpu with s := s.a &&& s.x }

/-- R320, R352 and, under its parameter, R290: `Fatal(op)`. That it answers a next state and that a step from it is
the fault `sessionEnded` is log entry 13 (DEDUCED): R12 names `Fatal` beside the next state, and R340 says that
no step exists after it. -/
def Obligations.HaltResults : Prop :=
  ∀ (s : State) (b lo hi : Byte),
    (∀ f ∈ ([(0x02, .jam02), (0x12, .jam12), (0x22, .jam22), (0x32, .jam32), (0x42, .jam42),
       (0x52, .jam52), (0x62, .jam62), (0x72, .jam72), (0x92, .jam92), (0xB2, .jamB2),
       (0xD2, .jamD2), (0xF2, .jamF2)] : List (Byte × Instr)),
      f.2.opcode = f.1 ∧ exec f.2 s = .next (s.withCpu { s.cpu with runState := .fatal f.1 (s.pc - 1) })) ∧
    (s.params.unstableFatal = true →
      ∀ f ∈ ([(0x8B, .ane b), (0x93, .shaIzy b), (0x9B, .tas lo hi), (0x9C, .shy lo hi),
       (0x9E, .shx lo hi), (0x9F, .shaAby lo hi), (0xAB, .lxa b)] : List (Byte × Instr)),
        f.2.opcode = f.1 ∧ exec f.2 s = .next (s.withCpu { s.cpu with runState := .fatal f.1 (s.pc - 1) })) ∧
    (∀ op addr, step (s.withCpu { s.cpu with runState := .fatal op addr }) = .fault .sessionEnded)

/-- Decode inverts encode on every well-formed instruction (30_encoding.md R110 to R115). -/
def Obligations.DecodeInvertsEncode : Prop :=
  ∀ (i : Instr) (rest : List Byte), i.wf = true → decode (encode i ++ rest) = .ok (i, rest)

/-- R118: there is no encoding that does not decode; R111 gives the lengths. -/
def Obligations.EveryOpcodeDecodes : Prop :=
  (∀ (op b1 b2 : Byte) (rest : List Byte), ∃ i tail,
      decode (op :: b1 :: b2 :: rest) = .ok (i, tail) ∧ i.opcode = op ∧
        tail.length + (encode i).length = rest.length + 3 ∧
        (encode i).length = (descriptor op).mode.length) ∧
    decode [] = .error .noOpcode ∧
    (∀ (bytes : List Byte) (i : Instr) (rest : List Byte), decode bytes = .ok (i, rest) → bytes = encode i ++ rest)

/-- R120 with cells of the map of R115. -/
def Obligations.WordsDecode : Prop :=
  ∀ f ∈ ([([0xE8], .inx), ([0x0A], .aslAcc), ([0xA9, 0x10], .ldaImm 0x10), ([0xA5, 0x10], .ldaZp 0x10),
       ([0xB5, 0x10], .ldaZpx 0x10), ([0xB6, 0x10], .ldxZpy 0x10), ([0xAD, 0x34, 0x12], .ldaAbs 0x34 0x12),
       ([0xBD, 0x34, 0x12], .ldaAbx 0x34 0x12), ([0xB9, 0x34, 0x12], .ldaAby 0x34 0x12),
       ([0x6C, 0x34, 0x12], .jmpInd 0x34 0x12), ([0x20, 0x34, 0x12], .jsr 0x1234), ([0xA1, 0x10], .ldaIzx 0x10), ([0xB1, 0x10], .ldaIzy 0x10),
       ([0xD0, 0xFC], .bne 0xFC), ([0x00], .brk), ([0x40], .rti), ([0x91, 0x10], .staIzy 0x10),
       ([0x1E, 0x34, 0x12], .aslAbx 0x34 0x12), ([0xC7, 0x10], .dcpZp 0x10), ([0x02], .jam02),
       ([0xEB, 0x10], .sbcImmEB 0x10)] : List (List Byte × Instr)),
      decode f.1 = .ok (f.2, [])

/-- R340 without an interrupt, with the fetch cycles of R140 and R141. That these cycles come before `exec`, two of
the three of JSR (R260), is log entry 14 (DESIGN CHOICE); that a fatal opcode answers a next state is log entry
13 (DEDUCED). -/
def Obligations.StepRunsDecoded : Prop :=
  ∀ s : State, s.runState = .running → noService s = true →
    let s0 : State := { s with noServiceNext := false }
    (∀ (i : Instr) (rest : List Byte),
      decode [peek s.pc s, peek (s.pc + 1) s, peek (s.pc + 2) s] = .ok (i, rest) →
      (∀ k < (encode i).length, plainMemory (s.pc + BitVec.ofNat 16 k) s = true) →
      (s.params.unstableFatal && isUnstable i.opcode) = false →
        let u := fetchBytes (fetchLength i.opcode) s0
        step s = exec i u ∧ SameMem s u ∧
          u.cpu = { s.cpu with pc := s.pc + BitVec.ofNat 16 (fetchLength i.opcode), noServiceNext := false }) ∧
    (plainMemory s.pc s = true → (s.params.unstableFatal && isUnstable (peek s.pc s)) = true →
      step s = .next ((fetchBytes 1 s0).withCpu
        { s.cpu with pc := s.pc + 1, noServiceNext := false, runState := .fatal (peek s.pc s) s.pc }))

/-- R340: servicing at the start of the step, at most once. -/
def Obligations.StepServicesInterrupts : Prop :=
  ∀ s : State, s.runState = .running →
    (noService s = false →
      (interruptSequence s).runState = .running ∧ step s = step { interruptSequence s with noServiceNext := true }) ∧
    (noService s = true → ∃ i, step s = exec i (fetchInstr { s with noServiceNext := false }).2)

/-- R347: the vector is chosen after the status push. -/
def Obligations.NmiTakesItsVector : Prop :=
  ∀ (s : State) (lo hi : Byte),
    (s.nmiPending = true → s.cart.cpuRead 0xFFFA = some lo → s.cart.cpuRead 0xFFFB = some hi →
      (interruptSequence s).pc = hi ++ lo ∧ ∃ t, exec .brk s = .next t ∧ t.pc = hi ++ lo) ∧
    ((push (s.p.pushed false) (push (lo8 s.pc) (push (hi8 s.pc) (dummyRead s.pc (dummyRead s.pc s))))).nmiPending = false →
      s.cart.cpuRead 0xFFFE = some lo → s.cart.cpuRead 0xFFFF = some hi → (interruptSequence s).pc = hi ++ lo)

/-- R341 to R343, seen from outside a bus cycle. -/
def Obligations.InterruptLatches : Prop :=
  ∀ (s : State) (addr : Word) (v : Byte),
    let polled (t : State) : Prop :=
      t.nmiLine = t.ppu.nmiOutput ∧
        t.irqRaised = ((t.apu.frameIrq || t.apu.dmcIrq || t.cart.irqLine) && !t.p.i)
    let captured (t : State) : Prop :=
      t.irqPending = s.irqRaised ∧ t.nmiPending = (s.nmiPending || s.nmiRaised) ∧
        t.nmiRaised = (t.nmiLine && !s.nmiLine)
    polled (busRead addr s).2 ∧ polled (busReadWith true addr s).2 ∧ polled (busWrite addr v s) ∧
    (dmcQuiet s = true → captured (busRead addr s).2) ∧
    (addr ≠ 0x4014 → captured (busWrite addr v s)) ∧
    (dmcQuiet s = true →
      let t := (busReadWith true addr s).2
      t.irqPending = s.irqPending ∧ t.nmiPending = s.nmiPending ∧
        t.nmiRaised = (s.nmiRaised || (t.nmiLine && !s.nmiLine)))

/-- R344: the one-instruction delay of CLI, SEI and PLP, and none for RTI. -/
def Obligations.FlagChangesAreSeenLate : Prop :=
  ∀ s : State,
    (∃ t, exec .cli s = .next t ∧ t.p.i = false ∧ t.irqRaised = (irqLine t && !s.p.i)) ∧
    (∃ t, exec .sei s = .next t ∧ t.p.i = true ∧ t.irqRaised = (irqLine t && !s.p.i)) ∧
    (∃ t, exec .plp s = .next t ∧ t.p.i = (s.ram.read (256 + (s.s + 1).toNat)).getLsbD 2 ∧
      t.irqRaised = (irqLine t && !s.p.i)) ∧
    (∃ t, exec .rti s = .next t ∧ t.p.i = (s.ram.read (256 + (s.s + 1).toNat)).getLsbD 2 ∧
      t.irqRaised = (irqLine t && !t.p.i))

/-- R35, and the stack discipline of R192 to R195, R260 to R263 and R346. `exec` of JSR starts with PC at its third
byte (log entry 14). -/
def Obligations.StackRoundTrips : Prop :=
  (∀ (f : Flags) (b : Bool),
    (f.pushed b).getLsbD 7 = f.n ∧ (f.pushed b).getLsbD 6 = f.v ∧ (f.pushed b).getLsbD 5 = true ∧
      (f.pushed b).getLsbD 4 = b ∧ (f.pushed b).getLsbD 3 = f.d ∧ (f.pushed b).getLsbD 2 = f.i ∧
      (f.pushed b).getLsbD 1 = f.z ∧ (f.pushed b).getLsbD 0 = f.c ∧ Flags.ofByte (f.pushed b) = f) ∧
  ∀ (s : State) (target : Word), s.ram.wf = true →
    (∃ t u, exec .php s = .next t ∧ exec .plp t = .next u ∧ u.cpu = s.cpu) ∧
    (∃ t u, exec .pha s = .next t ∧ exec .pla t = .next u ∧
      u.cpu = { s.cpu with p := { s.p with n := s.a.getLsbD 7, z := s.a == 0 } }) ∧
    (∃ t u, exec (.jsr target) s = .next t ∧ exec .rts t = .next u ∧ u.cpu = { s.cpu with pc := s.pc + 1 }) ∧
    (∃ u, exec .rti (interruptSequence s) = .next u ∧ u.cpu = s.cpu) ∧
    (∃ t u, exec .brk s = .next t ∧ exec .rti t = .next u ∧
      u.cpu = { s.cpu with pc := s.pc + 1, noServiceNext := true })

/-- R75. A countdown of 0 stays 0. -/
def Obligations.BusCycleOrder : Prop :=
  ∀ (s : State) (addr : Word) (v : Byte),
    let s1 : State := tickApu { s with cycles := s.cycles + 1 }
    let down : State := { s1 with dmaDelay := s1.dmaDelay - 1 }
    let s2 : State := if 0 < s1.dmaDelay then down else if s1.dmcRequest then dmcStall addr s1 else s1
    let read (u : State) : Byte × State :=
      let w := tickPpus s.params.readSplit.val (captureInterrupts u)
      (deviceValue addr w, pollInterrupts (tickPpus (3 - s.params.readSplit.val) (deviceEffect addr w)))
    let write (u : State) : State :=
      let w := tickPpus s.params.writeSplit.val (captureInterrupts u)
      pollInterrupts (tickPpus (3 - s.params.writeSplit.val) (deviceWrite addr v w))
    busRead addr s = read s2 ∧ stallRead addr s = read s1 ∧ oamRead addr s = read down ∧ writeCycle addr v s = write down ∧
      (addr ≠ 0x4014 → busWrite addr v s = write down) ∧ (addr = 0x4014 → busWrite addr v s = oamDma v (write down))

/-- R78 and R88 for the two RAMs of the CPU bus. -/
def Obligations.RamHoldsTheLastWrite : Prop :=
  ∀ (s : State) (a b : Word) (v : Byte),
    (s.ram.wf = true → a.toNat < 0x2000 → b.toNat < 0x2000 →
      (busRead b (busWrite a v s)).1 = if b.toNat % 0x800 = a.toNat % 0x800 then v else peek b s) ∧
    (s.cart.prgRam.wf = true → 0x6000 ≤ a.toNat → a.toNat < 0x8000 → 0x6000 ≤ b.toNat → b.toNat < 0x8000 →
      (busRead b (busWrite a v s)).1 = if b = a then v else peek b s)

/-- R83 and R87 on RAM and mapped cartridge addresses. -/
def Obligations.PlainReadsEqualPeek : Prop :=
  ∀ (s : State) (addr : Word), plainMemory addr s = true →
    let r := busRead addr s
    r.1 = peek addr s ∧ r.2.cpu = s.cpu ∧ SameMem s r.2 ∧ (busRead addr r.2).1 = r.1

/-- R86. The draw is a free value: nothing is said of it. -/
def Obligations.OpenBusReads : Prop :=
  ∀ (s : State) (addr : Word) (v : Byte),
    ((0x4000 ≤ addr.toNat ∧ addr.toNat ≤ 0x4014) ∨ (0x4018 ≤ addr.toNat ∧ addr.toNat ≤ 0x401F) ∨
        (0x2000 ≤ addr.toNat ∧ addr.toNat < 0x4000 ∧ addr.toNat % 8 ∈ [0, 1, 3, 5, 6]) ∨
        (0x4020 ≤ addr.toNat ∧ s.cart.cpuRead addr = none) →
      deviceValue addr s = Config.draw s.drawCount ∧
        deviceEffect addr s = { s with drawCount := s.drawCount + 1 }) ∧
    ((0x4018 ≤ addr.toNat ∧ addr.toNat < 0x6000) ∨
        (0x2000 ≤ addr.toNat ∧ addr.toNat < 0x4000 ∧ addr.toNat % 8 = 2) → deviceWrite addr v s = s)

/-- R84. `buttons` and `draw` are free values. -/
def Obligations.ControllerPorts : Prop :=
  ∀ (s : State) (v : Byte),
    (v.getLsbD 0 = true → deviceWrite 0x4016 v s =
      { s with
        strobe := true
        pad1 := { shift := Config.buttons .one s.drawCount, count := 0 }
        pad2 := { shift := Config.buttons .two s.drawCount, count := 0 }
        drawCount := s.drawCount + 1 }) ∧
    (v.getLsbD 0 = false → deviceWrite 0x4016 v s = { s with strobe := false }) ∧
    (let x := deviceValue 0x4016 s
     let y := deviceValue 0x4017 s
     x.extractLsb' 1 4 = 0 ∧ y.extractLsb' 1 4 = 0 ∧
      x.extractLsb' 5 3 = (Config.draw s.drawCount).extractLsb' 5 3 ∧
      y.extractLsb' 5 3 = (Config.draw s.drawCount).extractLsb' 5 3 ∧
      (s.strobe = false →
        x.getLsbD 0 = (decide (8 ≤ s.pad1.count) || s.pad1.shift.getLsbD 0) ∧
        y.getLsbD 0 = (decide (8 ≤ s.pad2.count) || s.pad2.shift.getLsbD 0) ∧
        deviceEffect 0x4016 s = { s with pad1 := padAfter 1 s.pad1, drawCount := s.drawCount + 1 } ∧
        deviceEffect 0x4017 s = { s with pad2 := padAfter 1 s.pad2, drawCount := s.drawCount + 1 }) ∧
      (s.strobe = true →
        x.getLsbD 0 = (Config.buttons .one s.drawCount).getLsbD 0 ∧
        y.getLsbD 0 = (Config.buttons .two s.drawCount).getLsbD 0 ∧
        deviceEffect 0x4016 s =
          { s with pad1 := { shift := Config.buttons .one s.drawCount, count := 0 }, drawCount := s.drawCount + 1 } ∧
        deviceEffect 0x4017 s =
          { s with pad2 := { shift := Config.buttons .two s.drawCount, count := 0 }, drawCount := s.drawCount + 1 })) ∧
    (∀ (buttons : Byte) (k : Nat),
      let pad := padAfter k { shift := buttons, count := 0 }
      (decide (8 ≤ pad.count) || pad.shift.getLsbD 0) = (decide (8 ≤ k) || buttons.getLsbD k))

/-- R142 to R149, after the operand fetches of R141. -/
def Obligations.EffectiveAddresses : Prop :=
  ∀ (s : State) (b lo hi : Byte) (cls : AccessClass),
    let indexed (l h i : Byte) (u : State) : Word × State :=
      ((h ++ l) + i.setWidth 16, if 255 < l.toNat + i.toNat ∨ cls ≠ .read then dummyRead (h ++ (l + i)) u else u)
    eaZp b s = (0#8 ++ b, s) ∧
    eaZpx b s = (0#8 ++ (b + s.x), dummyRead (0#8 ++ b) s) ∧
    eaZpy b s = (0#8 ++ (b + s.y), dummyRead (0#8 ++ b) s) ∧
    eaAbs lo hi s = (hi ++ lo, s) ∧
    eaAbx cls lo hi s = indexed lo hi s.x s ∧
    eaAby cls lo hi s = indexed lo hi s.y s ∧
    eaIzx b s =
      (s.ram.read (b + s.x + 1).toNat ++ s.ram.read (b + s.x).toNat,
        (busRead (0#8 ++ (b + s.x + 1)) (busRead (0#8 ++ (b + s.x)) (dummyRead (0#8 ++ b) s)).2).2) ∧
    eaIzy cls b s =
      indexed (s.ram.read b.toNat) (s.ram.read (b + 1).toNat) s.y (busRead (0#8 ++ (b + 1)) (busRead (0#8 ++ b) s).2).2 ∧
    targetInd lo hi s =
      (let tl := busRead (hi ++ lo) s
       let th := busRead (hi ++ (lo + 1)) tl.2
       (th.1 ++ tl.1, th.2))

/-- R159 and R660. The fetch takes one cycle a byte, and two for JSR, whose third byte is read by its own sequence
(log entry 14, DESIGN CHOICE). That an opcode which ends the session answers a next state is log entry 13
(DEDUCED): R660 gives it no completing count. -/
def Obligations.CycleCounts : Prop :=
  ∀ (i : Instr) (s : State), dmcQuiet s = true →
    ((descriptor i.opcode).cls = .write ∨ (descriptor i.opcode).cls = .rmw → storeAddressOf i s ≠ 0x4014) →
      ∃ t, exec i s = .next t ∧
        (if haltsIn i s then t.cycles = s.cycles
         else t.cycles + fetchLength i.opcode = s.cycles + cycleTable.getD i.opcode.toNat 0 + extraCycles i s)

/-- R630. -/
def Obligations.ResetSequence : Prop :=
  ∀ s : State,
    let t := resetSequence s
    SameMem s t ∧ t.a = s.a ∧ t.x = s.x ∧ t.y = s.y ∧ t.s = s.s - 3 ∧ t.p = { s.p with i := true } ∧
      t.runState = s.runState ∧ (dmcQuiet s = true → t.cycles = s.cycles + 7) ∧
      (∀ lo hi, s.cart.cpuRead 0xFFFC = some lo → s.cart.cpuRead 0xFFFD = some hi → t.pc = hi ++ lo)

/-- R631 to R635 after the sequence of R630. That initial contents of another length are cut or filled, and that
OAM_INIT loses the attribute bits that do not exist, is log entry 15 (DEDUCED). Nothing is said of the sprite
fetch latches, which are log entry 9. -/
def Obligations.AttachLeaves : Prop :=
  ∀ (l : Launch) (s : State), attach l = .ok s →
    s.a = 0 ∧ s.x = 0 ∧ s.y = 0 ∧ s.s = 0xFD ∧
      s.p = { c := false, z := false, i := true, d := false, v := false, n := false } ∧
      s.cycles = 7 ∧ s.nmiLine = false ∧ s.nmiRaised = false ∧ s.nmiPending = false ∧ s.irqRaised = false ∧
      s.irqPending = false ∧ s.dmcRequest = false ∧ s.dmaDelay = 0 ∧ s.noServiceNext = false ∧ s.runState = .running ∧
      s.strobe = false ∧ s.pad1 = { shift := 0, count := 8 } ∧ s.pad2 = { shift := 0, count := 8 } ∧
      s.ppu = { s.ppu with
        dot := 21, scanline := 0, oddFrame := false, ctrl := 0, mask := 0
        vblank := false, spr0Hit := false, sprOverflow := false
        v := 0, t := 0, fineX := 0, w := false, readBuffer := 0, oamAddr := 0, suppressVblank := false
        secOam := Vector.replicate 32 0xFF
        palette := l.palInit
        ntRam := Memory.ofBytes 0 (l.vramInit.take (if s.cart.headerMirroring = .fourScreen then 4096 else 2048))
        bg := { ntByte := 0, atBits := 0, ptLo := 0, ptHi := 0, bgLo := 0, bgHi := 0, atLo := 0, atHi := 0 }
        slots := Vector.replicate 8 { lo := 0, hi := 0, attr := 0, x := 0 }
        sprCount := 0, slot0IsZero := false
        eval := { n := 0, m := 0, found := 0, copy := 0, done := false, zero := false } } ∧
      (∀ k < 256, s.ppu.oam.read k = if k % 4 = 2 then l.oamInit.getD k 0 &&& 0xE3 else l.oamInit.getD k 0) ∧
      (∀ k, s.ppu.frame.read k = if k < 20 then l.palInit[0].setWidth 8 else 0) ∧
      (let env : Envelope := { start := false, divider := 0, decay := 0, volume := 0, constant := false }
       let pulse : Pulse :=
         { enabled := false, duty := 0, halt := false, env := env, swEnable := false, swPeriod := 0, swNegate := false
           swShift := 0, swReload := false, swDivider := 0, period := 0, timer := 0, seq := 0, length := 0 }
       s.apu = apuTicks 7
         { s.apu with
           p1 := pulse
           p2 := pulse
           tri :=
             { enabled := false, control := false, linReload := 0, linear := 0, linReloadFlag := false
               period := 0, timer := 0, seq := 0, length := 0 }
           noise :=
             { enabled := false, halt := false, env := env, mode := false, periodIndex := 0, timer := 0, lfsr := 1
               length := 0 }
           dmc :=
             { irqEnable := false, loop := false, rateIndex := 0, timer := 427, level := 0, sampleAddr := 0xC000
               sampleLen := 1, curAddr := 0xC000, bytesLeft := 0, buffer := 0, bufferEmpty := true, shift := 0
               bitsLeft := 8, silence := true }
           mode5 := false, inhibit := false, seqCycle := 0, fcDelay := 0, apuOdd := false, frameIrq := false
           dmcIrq := false }) ∧
      s.apu.seqCycle = 7 ∧ s.apu.frameIrq = false ∧ s.apu.dmcIrq = false ∧ s.apu.p1.length = 0 ∧ s.apu.p2.length = 0 ∧
      s.apu.tri.length = 0 ∧ s.apu.noise.length = 0 ∧ s.apu.dmc.bytesLeft = 0 ∧
      load l = .ok s.cart ∧ s.cart.mirroring = s.cart.headerMirroring ∧
      s.cart.mapper =
        (match s.cart.mapper.variant with
        | 0 => .nrom
        | 1 => .mmc1 { shift := 0x10, control := 0x0C, chr0 := 0, chr1 := 0, prg := 0, lastWrite := none }
        | 2 => .uxrom 0
        | 3 => .cnrom 0
        | _ => .mmc3
          { select := 0, r := Vector.replicate 8 0, mirrorBit := false, ramProtect := 0, irqLatch := 0, irqCounter := 0
            irqReload := false, irqEnabled := false, irqPending := false, a12 := false, a12LowAt := 0 }) ∧
      (∀ k < 8192, s.cart.prgRam.read k =
        if s.cart.battery then (match l.save with | some bytes => bytes.getD k 0 | none => 0) else l.prgRamInit.getD k 0) ∧
      (s.cart.chrBanks8 = 0 → ∀ k < 8192, s.cart.chr.read k = l.chrRamInit.getD k 0) ∧
      s.params = l.params ∧ (∀ k < 2048, s.ram.read k = l.ramInit.getD k 0) ∧
      (∃ lo hi, s.cart.cpuRead 0xFFFC = some lo ∧ s.cart.cpuRead 0xFFFD = some hi ∧ s.pc = hi ++ lo) ∧
      runInv s = true

/-- R571 and R573. -/
def Obligations.LoadRefusals : Prop :=
  ∀ l : Launch,
    let f := l.image
    let byte (k : Nat) : Nat := (f.getD k 0).toNat
    let prg := 16384 * byte 4
    let chr := 8192 * byte 5
    let start := if byte 6 / 4 % 2 = 1 then 528 else 16
    let number := byte 6 / 16 + 16 * (byte 7 / 16) + (if byte 7 / 4 % 4 = 2 then 256 * (byte 8 % 16) else 0)
    (load l = .error .malformedHeader ↔ f.length < 16 ∨ f.take 4 ≠ [0x4E, 0x45, 0x53, 0x1A]) ∧
    (16 ≤ f.length → f.take 4 = [0x4E, 0x45, 0x53, 0x1A] →
      (load l = .error .truncated ↔ prg = 0 ∨ f.length < start + prg + chr) ∧
      (prg ≠ 0 → start + prg + chr ≤ f.length →
        (load l = .error .unsupportedMapper ↔ 4 < number) ∧
        (number ≤ 4 →
          (load l = .error .corruptSave ↔ byte 6 / 2 % 2 = 1 ∧ ∃ b, l.save = some b ∧ b.length ≠ 8192) ∧
          (¬ (byte 6 / 2 % 2 = 1 ∧ ∃ b, l.save = some b ∧ b.length ≠ 8192) →
            ∃ c, load l = .ok c ∧ c.prgBanks16 = byte 4 ∧ c.chrBanks8 = byte 5 ∧
              c.mapper.variant = number ∧ c.battery = decide (byte 6 / 2 % 2 = 1) ∧ c.mirroring = c.headerMirroring ∧
              c.headerMirroring =
                (if byte 6 / 8 % 2 = 1 then .fourScreen else if byte 6 % 2 = 1 then .vertical else .horizontal) ∧
              (∀ k < prg, c.prgRom.read k = f.getD (start + k) 0) ∧
              (chr ≠ 0 → ∀ k < chr, c.chr.read k = f.getD (start + prg + k) 0)))))

/-- R380, R384 and R661, with the fetch of R387 and R522. A request with no byte left rests on the free value of log
entry 7, and nothing is said of its count here. -/
def Obligations.OamDmaCycles : Prop :=
  ∀ (s : State) (page : Byte) (src : Word),
    let d := s.apu.dmc
    let t := oamDma page s
    let u := busWrite 0x4014 page s
    let base := if (s.cycles + 1) % 2 = 0 then 513 else 514
    let later := if (s.cycles + 2) % 2 = 0 then 513 else 514
    let next : Word := if d.curAddr = 0xFFFF then 0x8000 else d.curAddr + 1
    (dmcQuiet s = true → t.cycles = s.cycles + base ∧ u.cycles = s.cycles + 1 + later) ∧
    (d.loop = false → (s.dmcRequest = true → d.bytesLeft ≠ 0) →
      t.apu.dmc.bytesLeft.toNat ≤ d.bytesLeft.toNat ∧ u.apu.dmc.bytesLeft.toNat ≤ d.bytesLeft.toNat ∧
        t.cycles = s.cycles + base + 2 * (d.bytesLeft.toNat - t.apu.dmc.bytesLeft.toNat) ∧
        u.cycles = s.cycles + 1 + later + 2 * (d.bytesLeft.toNat - u.apu.dmc.bytesLeft.toNat)) ∧
    (s.dmcRequest = true → s.dmaDelay ≤ 3 → d.bytesLeft = 1 → d.loop = false →
      t.cycles = s.cycles + base + 2 ∧ t.dmcRequest = false ∧ t.apu.dmc.bytesLeft = 0 ∧ t.apu.dmc.curAddr = next ∧
        (plainMemory d.curAddr s = true → t.apu.dmc.buffer = peek d.curAddr s) ∧
        (d.irqEnable = true → t.apu.dmcIrq = true)) ∧
    (s.dmcRequest = true → s.dmaDelay = 0 →
      let r := oamServiceDmc src s
      let m := r.apu.dmc
      r.cycles = s.cycles + 2 ∧ (oamTransfer src s).cycles = s.cycles + 4 ∧ r.dmcRequest = false ∧ r.cpu = s.cpu ∧
        SameMem s r ∧ m.bufferEmpty = false ∧ (plainMemory d.curAddr s = true → m.buffer = peek d.curAddr s) ∧
        (2 ≤ d.bytesLeft.toNat → m.bytesLeft = d.bytesLeft - 1 ∧ m.curAddr = next) ∧
        (d.bytesLeft = 1 → d.loop = true → m.bytesLeft = d.sampleLen ∧ m.curAddr = d.sampleAddr) ∧
        (d.bytesLeft = 1 → d.loop = false → m.bytesLeft = 0 ∧ m.curAddr = next)) ∧
    (s.dmcRequest = false ∨ s.dmaDelay ≠ 0 →
      oamServiceDmc src s = s ∧ (oamTransfer src s).cycles = s.cycles + 2) ∧
    t.cpu = s.cpu ∧ SameMemBut ((List.range 256).map fun i => (.oam, i)) s t

/-- R380 to R382 with R434. -/
def Obligations.OamDmaFills : Prop :=
  ∀ (s : State) (page i : Byte), page.toNat < 0x20 → s.ppu.mask.getLsbD 3 = false → s.ppu.mask.getLsbD 4 = false →
    s.ppu.oam.wf = true →
      let t := busWrite 0x4014 page s
      let v := s.ram.read ((256 * page.toNat + i.toNat) % 0x800)
      t.ppu.oamAddr = s.ppu.oamAddr ∧
        t.ppu.oam.read (s.ppu.oamAddr + i).toNat =
          if (s.ppu.oamAddr + i).toNat % 4 = 2 then v &&& 0xE3 else v

/-- R386 to R389 with R522. A $4015 write between the request and its fetch leaves no byte; what the count and the
address become then is left open here, since it rests on the free value of log entry 7. -/
def Obligations.DmcStalls : Prop :=
  ∀ (s : State) (addr : Word) (v : Byte),
    (s.dmaDelay = 0 → (cycleStart s).dmcRequest = true →
      let t := (busRead addr s).2
      let d := s.apu.dmc
      t.cycles = s.cycles + 5 ∧ t.dmcRequest = false ∧ t.cpu = s.cpu ∧ SameMem s t ∧ t.apu.dmc.bufferEmpty = false ∧
        (plainMemory d.curAddr s = true → t.apu.dmc.buffer = peek d.curAddr s) ∧
        (2 ≤ d.bytesLeft.toNat → t.apu.dmc.bytesLeft = d.bytesLeft - 1 ∧
          t.apu.dmc.curAddr = (if d.curAddr = 0xFFFF then 0x8000 else d.curAddr + 1)) ∧
        (d.bytesLeft = 1 → d.loop = true → t.apu.dmc.bytesLeft = d.sampleLen ∧ t.apu.dmc.curAddr = d.sampleAddr) ∧
        (d.bytesLeft = 1 → d.loop = false → t.apu.dmc.bytesLeft = 0 ∧ (d.irqEnable = true → t.apu.dmcIrq = true))) ∧
    (0 < s.dmaDelay → (busRead addr s).2.cycles = s.cycles + 1 ∧ (busRead addr s).2.dmaDelay = s.dmaDelay - 1) ∧
    (addr ≠ 0x4014 → (busWrite addr v s).cycles = s.cycles + 1)

/-- R428 to R438, the write entry points but $2007. -/
def Obligations.PpuRegisterWrites : Prop :=
  ∀ (s : State) (addr : Word) (d : Byte), 0x2000 ≤ addr.toNat → addr.toNat < 0x4000 →
    let p := s.ppu
    let with_ (q : Ppu) : State := { s with ppu := q }
    (s.cycles < 29658 → addr.toNat % 8 ∈ [0, 1, 5, 6] → deviceWrite addr d s = s) ∧
    (29658 ≤ s.cycles →
      (addr.toNat % 8 = 0 → deviceWrite addr d s =
        with_ { p with ctrl := d, t := p.t.extractLsb' 12 3 ++ d.extractLsb' 0 2 ++ p.t.extractLsb' 0 10 }) ∧
      (addr.toNat % 8 = 1 → deviceWrite addr d s = with_ { p with mask := d }) ∧
      (addr.toNat % 8 = 5 → p.w = false → deviceWrite addr d s =
        with_ { p with t := p.t.extractLsb' 5 10 ++ d.extractLsb' 3 5, fineX := d.extractLsb' 0 3, w := true }) ∧
      (addr.toNat % 8 = 5 → p.w = true → deviceWrite addr d s =
        with_ { p with
          t := d.extractLsb' 0 3 ++ p.t.extractLsb' 10 2 ++ d.extractLsb' 3 5 ++ p.t.extractLsb' 0 5, w := false }) ∧
      (addr.toNat % 8 = 6 → p.w = false → deviceWrite addr d s =
        with_ { p with t := 0#1 ++ d.extractLsb' 0 6 ++ p.t.extractLsb' 0 8, w := true }) ∧
      (addr.toNat % 8 = 6 → p.w = true →
        let t : BitVec 15 := p.t.extractLsb' 8 7 ++ d
        deviceWrite addr d s =
          { s with
            ppu := { p with t := t, v := t, w := false }
            cart := if p.renderingActive then s.cart else s.cart.setPpuAddress s.cycles (t.extractLsb' 0 14) })) ∧
    (addr.toNat % 8 = 3 → deviceWrite addr d s = with_ { p with oamAddr := d }) ∧
    (addr.toNat % 8 = 4 → p.renderingActive = true →
      deviceWrite addr d s = with_ { p with oamAddr := p.oamAddr + 4 }) ∧
    (addr.toNat % 8 = 4 → p.renderingActive = false → deviceWrite addr d s =
      with_ { p with
        oam := p.oam.write p.oamAddr.toNat (if p.oamAddr.toNat % 4 = 2 then d &&& 0xE3 else d)
        oamAddr := p.oamAddr + 1 })

/-- R437, R439 and R440, with the bus of R94. The draw is the free value of log entry 5, and so is that a read below
$3F00 uses one up; that a palette write drives its address too is log entry 18 (DEDUCED). -/
def Obligations.PpuDataPort : Prop :=
  ∀ (s : State) (addr : Word) (d : Byte), 0x2000 ≤ addr.toNat → addr.toNat < 0x4000 → addr.toNat % 8 = 7 →
    let p := s.ppu
    let a : BitVec 14 := p.v.extractLsb' 0 14
    let under : BitVec 14 := if a.toNat < 0x3F00 then a else a &&& 0x2FFF
    let v : BitVec 15 :=
      if p.renderingActive then incY (incX p.v) else p.v + (if p.ctrl.getLsbD 2 then 32 else 1)
    let stepped (q : Ppu) (c : Cart) : State :=
      { s with
        ppu := { q with v := v }
        cart := if p.renderingActive then c else c.setPpuAddress s.cycles (v.extractLsb' 0 14) }
    (a.toNat < 0x3F00 → deviceValue addr s = p.readBuffer) ∧
    (0x3F00 ≤ a.toNat →
      (deviceValue addr s).extractLsb' 0 6 = p.paletteRead (a.extractLsb' 0 5) ∧
        (deviceValue addr s).extractLsb' 6 2 = (Config.draw s.drawCount).extractLsb' 6 2) ∧
    deviceEffect addr s =
      bumpDraw (stepped { p with readBuffer := p.peek s.cart under } (s.cart.setPpuAddress s.cycles under)) ∧
    (a.toNat < 0x2000 →
      deviceWrite addr d s = stepped p ((s.cart.setPpuAddress s.cycles a).chrWrite a.toNat d)) ∧
    (0x2000 ≤ a.toNat → a.toNat < 0x3F00 → deviceWrite addr d s =
      stepped { p with ntRam := p.ntRam.write (ntIndex s.cart.mirroring a) d } (s.cart.setPpuAddress s.cycles a)) ∧
    (0x3F00 ≤ a.toNat →
      deviceWrite addr d s =
        stepped (p.paletteWrite (a.extractLsb' 0 5) (d.extractLsb' 0 6)) (s.cart.setPpuAddress s.cycles a))

/-- R430, R433 and R548. The draw is a free value. -/
def Obligations.StatusReads : Prop :=
  ∀ (s : State) (addr : Word),
    let draw := Config.draw s.drawCount
    let r := deviceValue addr s
    let race : Bool := decide (s.ppu.scanline = 241 ∧ s.ppu.dot = 1)
    (0x2000 ≤ addr.toNat → addr.toNat < 0x4000 → addr.toNat % 8 = 2 →
      r.getLsbD 7 = (s.ppu.vblank && !race) ∧ r.getLsbD 6 = s.ppu.spr0Hit ∧ r.getLsbD 5 = s.ppu.sprOverflow ∧
        r.extractLsb' 0 5 = draw.extractLsb' 0 5 ∧
        deviceEffect addr s =
          { s with
            ppu := { s.ppu with vblank := false, w := false, suppressVblank := s.ppu.suppressVblank || race }
            drawCount := s.drawCount + 1 }) ∧
    (0x2000 ≤ addr.toNat → addr.toNat < 0x4000 → addr.toNat % 8 = 4 →
      r = (if s.ppu.renderingActive = true ∧ 1 ≤ s.ppu.dot ∧ s.ppu.dot ≤ 64 then 0xFF
        else s.ppu.oam.read s.ppu.oamAddr.toNat) ∧ deviceEffect addr s = s) ∧
    (addr = 0x4015 →
      r.getLsbD 7 = s.apu.dmcIrq ∧ r.getLsbD 6 = s.apu.frameIrq ∧ r.getLsbD 5 = draw.getLsbD 5 ∧
        r.getLsbD 4 = (s.apu.dmc.bytesLeft != 0) ∧ r.getLsbD 3 = (s.apu.noise.length != 0) ∧
        r.getLsbD 2 = (s.apu.tri.length != 0) ∧ r.getLsbD 1 = (s.apu.p2.length != 0) ∧
        r.getLsbD 0 = (s.apu.p1.length != 0) ∧
        deviceEffect addr s = { s with apu := { s.apu with frameIrq := false }, drawCount := s.drawCount + 1 })

/-- R450 to R453. -/
def Obligations.DotAdvance : Prop :=
  ∀ (n now : Nat) (p : Ppu) (c : Cart), p.dot ≤ 340 → p.scanline ≤ 261 →
    let q := (p.tick n now c).1
    let ends : Bool := decide (p.scanline = 261 ∧
      (p.dot = 340 ∨ (p.dot = 339 ∧ p.oddFrame = true ∧ (p.mask.getLsbD 3 || p.mask.getLsbD 4) = true)))
    341 * q.scanline + q.dot = (if ends then 0 else 341 * p.scanline + p.dot + 1) ∧ q.dot ≤ 340 ∧ q.scanline ≤ 261 ∧
      q.oddFrame = (p.oddFrame != ends) ∧
      q.vblank =
        (if p.scanline = 241 ∧ p.dot = 1 then p.vblank || !p.suppressVblank
          else if p.scanline = 261 ∧ p.dot = 1 then false else p.vblank) ∧
      q.suppressVblank = (if p.scanline = 241 ∧ p.dot = 1 then false else p.suppressVblank)

/-- R457 to R460 with the dots of R454 and R455, and R468 with rendering disabled. -/
def Obligations.ScrollIncrements : Prop :=
  (∀ v t : BitVec 15,
    (let w := incX v
     let x := v.extractLsb' 0 5
     w.extractLsb' 0 5 = (if x = 31 then 0 else x + 1) ∧ w.getLsbD 10 = (v.getLsbD 10 != (x == 31)) ∧
       w.extractLsb' 5 5 = v.extractLsb' 5 5 ∧ w.extractLsb' 11 4 = v.extractLsb' 11 4) ∧
    (let w := incY v
     let fine := v.extractLsb' 12 3
     let y := v.extractLsb' 5 5
     w.extractLsb' 12 3 = (if fine = 7 then 0 else fine + 1) ∧
       w.extractLsb' 5 5 = (if fine ≠ 7 then y else if y = 29 ∨ y = 31 then 0 else y + 1) ∧
       w.getLsbD 11 = (v.getLsbD 11 != (fine == 7 && y == 29)) ∧ w.extractLsb' 0 5 = v.extractLsb' 0 5 ∧
       w.getLsbD 10 = v.getLsbD 10) ∧
    copyX t v = v.extractLsb' 11 4 ++ t.extractLsb' 10 1 ++ v.extractLsb' 5 5 ++ t.extractLsb' 0 5 ∧
    copyY t v = t.extractLsb' 11 4 ++ v.extractLsb' 10 1 ++ t.extractLsb' 5 5 ++ v.extractLsb' 0 5) ∧
  (∀ (n now : Nat) (p : Ppu) (c : Cart),
    (p.tick n now c).1.v =
      if p.renderingActive = false then p.v
      else if p.dot = 256 then incY (incX p.v)
      else if p.dot = 257 then copyX p.t p.v
      else if p.dot % 8 = 0 ∧ ((1 ≤ p.dot ∧ p.dot ≤ 255) ∨ (321 ≤ p.dot ∧ p.dot ≤ 336)) then incX p.v
      else if p.scanline = 261 ∧ 280 ≤ p.dot ∧ p.dot ≤ 304 then copyY p.t p.v
      else p.v)

/-- R468, with the dots of R450 to R453 and the backdrop of R466. -/
def Obligations.RenderingDisabledHolds : Prop :=
  ∀ (n now : Nat) (p : Ppu) (c : Cart), p.mask.getLsbD 3 = false → p.mask.getLsbD 4 = false →
    let shown : Bool := decide (p.scanline ≤ 239 ∧ 1 ≤ p.dot ∧ p.dot ≤ 256)
    let setDot : Bool := decide (p.scanline = 241 ∧ p.dot = 1)
    let clearDot : Bool := decide (p.scanline = 261 ∧ p.dot = 1)
    let grey : BitVec 6 := if p.mask.getLsbD 0 then 0x30 else 0x3F
    p.tick n now c =
      ({ p with
         dot := if p.dot = 340 then 0 else p.dot + 1
         scanline := if p.dot = 340 then (if p.scanline = 261 then 0 else p.scanline + 1) else p.scanline
         oddFrame := p.oddFrame != (p.dot == 340 && p.scanline == 261)
         frame :=
           if shown then p.frame.write (256 * p.scanline + (p.dot - 1)) ((p.palette[0] &&& grey).setWidth 8) else p.frame
         vblank := if setDot then p.vblank || !p.suppressVblank else if clearDot then false else p.vblank
         suppressVblank := if setDot then false else p.suppressVblank
         spr0Hit := if clearDot then false else p.spr0Hit
         sprOverflow := if clearDot then false else p.sprOverflow }, c)

/-- R467. -/
def Obligations.SpriteZeroHit : Prop :=
  ∀ (n now : Nat) (p : Ppu) (c : Cart), ¬ (p.scanline = 261 ∧ p.dot = 1) →
    let b := 15 - p.fineX.toNat
    ((p.tick n now c).1.spr0Hit = true ↔
      p.spr0Hit = true ∨
        (p.scanline ≤ 239 ∧ 1 < p.dot ∧ p.dot < 256 ∧ p.mask.getLsbD 3 = true ∧ p.mask.getLsbD 4 = true ∧
          (p.dot ≤ 8 → p.mask.getLsbD 1 = true ∧ p.mask.getLsbD 2 = true) ∧ p.slot0IsZero = true ∧ 0 < p.sprCount ∧
          p.slots[0].x = 0 ∧ (p.slots[0].hi.getLsbD 7 = true ∨ p.slots[0].lo.getLsbD 7 = true) ∧
          (p.bg.bgHi.getLsbD b = true ∨ p.bg.bgLo.getLsbD b = true)))

/-- R576 and R95. -/
def Obligations.PpuBusMirrors : Prop :=
  ∀ (p : Ppu) (c : Cart) (now : Nat) (a b : BitVec 14) (d : Byte) (i j : BitVec 5) (v : BitVec 6),
    ntIndex .horizontal a = 1024 * (a.toNat / 2048 % 2) + a.toNat % 1024 ∧
    ntIndex .vertical a = 1024 * (a.toNat / 1024 % 2) + a.toNat % 1024 ∧
    ntIndex .singleLow a = a.toNat % 1024 ∧ ntIndex .singleHigh a = 1024 + a.toNat % 1024 ∧
    ntIndex .fourScreen a = a.toNat % 4096 ∧
    (0x2000 ≤ a.toNat → a.toNat < 0x3F00 → p.peek c a = p.ntRam.read (ntIndex c.mirroring a)) ∧
    (0x2000 ≤ a.toNat → a.toNat < 0x3F00 → 0x2000 ≤ b.toNat → b.toNat < 0x3F00 → p.ntRam.wf = true →
      let r := p.busWrite now a d c
      r.1.peek r.2 b = if ntIndex c.mirroring b = ntIndex c.mirroring a then d else p.peek c b) ∧
    paletteIndex i = (if i = 0x10 ∨ i = 0x14 ∨ i = 0x18 ∨ i = 0x1C then i - 0x10 else i) ∧
    (p.paletteWrite i v).paletteRead j = (if paletteIndex j = paletteIndex i then v else p.paletteRead j)

/-- R547 and R549. The sweep clock is spelled out by `AudioOutputs`. The request is that of R540. -/
def Obligations.ApuControlWrites : Prop :=
  ∀ (s : State) (d : Byte),
    (let m := s.apu.dmc
     let starts : Bool := decide (d.getLsbD 4 = true ∧ m.bytesLeft = 0)
     let q : Dmc :=
       if d.getLsbD 4 = false then { m with bytesLeft := 0 }
       else if m.bytesLeft = 0 then { m with curAddr := m.sampleAddr, bytesLeft := m.sampleLen }
       else m
     deviceWrite 0x4015 d s =
       { s with
         apu := { s.apu with
           p1 := { s.apu.p1 with enabled := d.getLsbD 0, length := if d.getLsbD 0 then s.apu.p1.length else 0 }
           p2 := { s.apu.p2 with enabled := d.getLsbD 1, length := if d.getLsbD 1 then s.apu.p2.length else 0 }
           tri := { s.apu.tri with enabled := d.getLsbD 2, length := if d.getLsbD 2 then s.apu.tri.length else 0 }
           noise := { s.apu.noise with enabled := d.getLsbD 3, length := if d.getLsbD 3 then s.apu.noise.length else 0 }
           dmc := q
           dmcIrq := false }
         dmcRequest := s.dmcRequest || (q.bufferEmpty && decide (q.bytesLeft ≠ 0))
         dmaDelay := if starts && m.bufferEmpty then 2 else s.dmaDelay }) ∧
    (let now : Bool := d.getLsbD 7
     let clocked (halt : Bool) (n : Byte) : Byte := if now = true ∧ halt = false ∧ n ≠ 0 then n - 1 else n
     let env (loop : Bool) (e : Envelope) : Envelope :=
       if now = false then e
       else if e.start then { e with start := false, decay := 15, divider := e.volume }
       else if e.divider = 0 then
         { e with divider := e.volume, decay := if e.decay ≠ 0 then e.decay - 1 else if loop then 15 else 0 }
       else { e with divider := e.divider - 1 }
     let pulse (first : Bool) (p : Pulse) : Pulse :=
       let q := { p with env := env p.halt p.env, length := clocked p.halt p.length }
       if now then q.clockSweep first else q
     let tri := s.apu.tri
     let noise := s.apu.noise
     deviceWrite 0x4017 d s =
       { s with
         apu := { s.apu with
           p1 := pulse true s.apu.p1
           p2 := pulse false s.apu.p2
           tri := { tri with
             linear :=
               if now = false then tri.linear
               else if tri.linReloadFlag then tri.linReload
               else if tri.linear ≠ 0 then tri.linear - 1
               else 0
             linReloadFlag := tri.linReloadFlag && (!now || tri.control)
             length := clocked tri.control tri.length }
           noise := { noise with env := env noise.halt noise.env, length := clocked noise.halt noise.length }
           mode5 := now
           inhibit := d.getLsbD 6
           frameIrq := s.apu.frameIrq && !d.getLsbD 6
           fcDelay := if s.cycles % 2 = 1 then 3 else 2 } })

/-- R512, R514 and the range of R560. -/
def Obligations.AudioOutputs : Prop :=
  (∀ (first : Bool) (p : Pulse),
    let q := p.clockSweep first
    let delta := p.period.toNat / 2 ^ p.swShift.toNat
    let target : Int :=
      if p.swNegate then (p.period.toNat : Int) - delta - (if first then 1 else 0) else p.period.toNat + delta
    let muted : Bool := decide (p.period.toNat < 8 ∨ 0x7FF < target)
    (q.period.toNat : Int) =
      (if p.swDivider = 0 ∧ p.swEnable = true ∧ p.swShift ≠ 0 ∧ muted = false then target else p.period.toNat) ∧
    q.swDivider = (if p.swDivider = 0 ∨ p.swReload = true then p.swPeriod else p.swDivider - 1) ∧ q.swReload = false ∧
    (muted = true ∨ p.length = 0 → p.out first = 0)) ∧
  (∀ u : Apu, 0 ≤ u.mixOut ∧ u.mixOut < 1)

/-- R530, R532 and R533. -/
def Obligations.FrameInterruptTiming : Prop :=
  ∀ u : Apu, u.fcDelay = 0 → u.seqCycle = 0 → u.frameIrq = false →
    (u.mode5 = false → u.inhibit = false →
      (∀ k < 29828, (apuTicks k u).frameIrq = false) ∧ (apuTicks 29828 u).frameIrq = true) ∧
    (u.mode5 = false → (apuTicks 29830 u).seqCycle = 0) ∧
    (u.mode5 = true ∨ u.inhibit = true → ∀ k, (apuTicks k u).frameIrq = false) ∧
    (u.mode5 = true → (apuTicks 37282 u).seqCycle = 0)

/-- R591 to R593. Cycle numbers start at 1. That the mirroring is the one of the header until the first load of
control is log entry 11 (DEDUCED). -/
def Obligations.SerialPort : Prop :=
  (∀ (m : Mmc1) (a0 a1 a2 a3 a4 : Word) (v0 v1 v2 v3 v4 : Byte) (n0 n1 n2 n3 n4 : Nat),
    m.shift = 0x10 → m.lastWrite ≠ some (n0 - 1) → n0 ≠ 0 →
    n1 ≠ n0 + 1 → n2 ≠ n1 + 1 → n3 ≠ n2 + 1 → n4 ≠ n3 + 1 →
    (∀ v ∈ [v0, v1, v2, v3, v4], v.getLsbD 7 = false) →
      let w := Mmc1.write n4 a4 v4 (Mmc1.write n3 a3 v3 (Mmc1.write n2 a2 v2 (Mmc1.write n1 a1 v1 (Mmc1.write n0 a0 v0 m))))
      let full : BitVec 5 :=
        v4.extractLsb' 0 1 ++ v3.extractLsb' 0 1 ++ v2.extractLsb' 0 1 ++ v1.extractLsb' 0 1 ++ v0.extractLsb' 0 1
      let r := a4.toNat / 0x2000 % 4
      w.shift = 0x10 ∧ w.lastWrite = some n4 ∧ w.control = (if r = 0 then full else m.control) ∧
        w.chr0 = (if r = 1 then full else m.chr0) ∧ w.chr1 = (if r = 2 then full else m.chr1) ∧
        w.prg = (if r = 3 then full else m.prg)) ∧
  (∀ (m : Mmc1) (a : Word) (v : Byte) (n : Nat),
    (m.lastWrite = some n → m.write (n + 1) a v = { m with lastWrite := some (n + 1) }) ∧
    (m.lastWrite ≠ some n → v.getLsbD 7 = true →
      m.write (n + 1) a v = { m with lastWrite := some (n + 1), shift := 0x10, control := m.control ||| 0x0C })) ∧
  (∀ (c : Cart) (m : Mmc1) (a : Word) (v : Byte) (n : Nat), c.mapper = .mmc1 m → 0x8000 ≤ a.toNat →
    let w := m.write (n + 1) a v
    let loadsControl : Bool := decide (m.lastWrite ≠ some n ∧ v.getLsbD 7 = false ∧ m.shift.getLsbD 0 = true ∧ a.toNat < 0xA000)
    c.cpuWrite (n + 1) a v =
      { c with
        mapper := .mmc1 w
        mirroring :=
          if loadsControl then
            (match (w.control.extractLsb' 0 2).toNat with
            | 0 => .singleLow
            | 1 => .singleHigh
            | 2 => .vertical
            | _ => .horizontal)
          else c.mirroring })

/-- R606 to R617. -/
def Obligations.ScanlineCounter : Prop :=
  (∀ (m : Mmc3) (a : Word) (v : Byte), 0x8000 ≤ a.toNat →
    let w := m.write a v
    let even : Bool := a.toNat % 2 == 0
    (a.toNat < 0xA000 → even = true → w = { m with select := v }) ∧
    (a.toNat < 0xA000 → even = false → ∀ k : Fin 8, w = { m with r := w.r } ∧
      w.r[k] = if k.val = (m.select.extractLsb' 0 3).toNat then v else m.r[k]) ∧
    (0xA000 ≤ a.toNat → a.toNat < 0xC000 → even = true → w = { m with mirrorBit := v.getLsbD 0 }) ∧
    (0xA000 ≤ a.toNat → a.toNat < 0xC000 → even = false → w = { m with ramProtect := v }) ∧
    (0xC000 ≤ a.toNat → a.toNat < 0xE000 → even = true → w = { m with irqLatch := v }) ∧
    (0xC000 ≤ a.toNat → a.toNat < 0xE000 → even = false → w = { m with irqCounter := 0, irqReload := true }) ∧
    (0xE000 ≤ a.toNat → even = true → w = { m with irqEnabled := false, irqPending := false }) ∧
    (0xE000 ≤ a.toNat → even = false → w = { m with irqEnabled := true })) ∧
  (∀ (m : Mmc3) (now : Nat) (p : BitVec 14),
    let w := m.setPpuAddress now p
    w = (if p.getLsbD 12 = true ∧ m.a12 = false ∧ 3 ≤ now - m.a12LowAt then { m.clockCounter with a12 := true }
      else if p.getLsbD 12 = false ∧ m.a12 = true then { m with a12 := false, a12LowAt := now }
      else { m with a12 := p.getLsbD 12 })) ∧
  (∀ m : Mmc3, m.irqReload = true → m.irqEnabled = true → m.irqPending = false →
    (∀ k ≤ m.irqLatch.toNat, (mmc3Clocks k m).irqPending = false) ∧
      (mmc3Clocks (m.irqLatch.toNat + 1) m).irqPending = true) ∧
  (∀ (c : Cart) (m : Mmc3) (a : Word) (v : Byte) (n : Nat), c.mapper = .mmc3 m → 0x8000 ≤ a.toNat →
    let setsMirroring : Bool :=
      decide (0xA000 ≤ a.toNat ∧ a.toNat < 0xC000 ∧ a.toNat % 2 = 0 ∧ c.headerMirroring ≠ .fourScreen)
    c.cpuWrite n a v =
      { c with
        mapper := .mmc3 (m.write a v)
        mirroring := if setsMirroring then (if v.getLsbD 0 then .horizontal else .vertical) else c.mirroring })

/-- R577 to R609. MMC1 modes 0 and 1 over an odd count of 16 KiB banks are log entry 10: the count of 32 KiB banks
is rounded down, and over a single bank nothing is said here. -/
def Obligations.BankMapping : Prop :=
  (∀ (c : Cart) (a : Nat), 0x8000 ≤ a → a < 0x10000 → 0 < c.prgBanks16 →
    let n := c.prgBanks16
    (c.mapper = .nrom ∨ (∃ b, c.mapper = .cnrom b) → c.prgIndex a = some ((a - 0x8000) % (16384 * n))) ∧
    (∀ b, c.mapper = .uxrom b → c.prgIndex a = some
      (if a < 0xC000 then b.toNat % n * 16384 + (a - 0x8000) else (n - 1) * 16384 + (a - 0xC000))) ∧
    (∀ m, c.mapper = .mmc1 m →
      let mode := (m.control.extractLsb' 2 2).toNat
      let bank := m.prg.toNat % 16
      (mode = 3 → c.prgIndex a = some
        (if a < 0xC000 then bank % n * 16384 + (a - 0x8000) else (n - 1) * 16384 + (a - 0xC000))) ∧
      (mode = 2 → c.prgIndex a = some
        (if a < 0xC000 then a - 0x8000 else bank % n * 16384 + (a - 0xC000))) ∧
      (mode < 2 → 2 ≤ n → c.prgIndex a = some (bank / 2 % (n / 2) * 32768 + (a - 0x8000)))) ∧
    (∀ m, c.mapper = .mmc3 m →
      let swap := m.select.getLsbD 6
      let r6 := m.r[6].toNat % 64
      let bank :=
        if a < 0xA000 then (if swap then 2 * n - 2 else r6)
        else if a < 0xC000 then m.r[7].toNat % 64
        else if a < 0xE000 then (if swap then r6 else 2 * n - 2)
        else 2 * n - 1
      c.prgIndex a = some (bank % (2 * n) * 8192 + a % 8192))) ∧
  (∀ (c : Cart) (a : Nat), a < 0x2000 →
    let n := if c.chrBanks8 = 0 then 1 else c.chrBanks8
    (c.mapper = .nrom ∨ (∃ b, c.mapper = .uxrom b) → c.chrIndex a = some a) ∧
    (∀ b, c.mapper = .cnrom b → c.chrIndex a = some (b.toNat % n * 8192 + a)) ∧
    (∀ m, c.mapper = .mmc1 m → c.chrIndex a = some
      (if m.control.getLsbD 4 = false then m.chr0.toNat / 2 % n * 8192 + a
        else if a < 0x1000 then m.chr0.toNat % (2 * n) * 4096 + a
        else m.chr1.toNat % (2 * n) * 4096 + (a - 0x1000))) ∧
    (∀ m, c.mapper = .mmc3 m →
      let w := if m.select.getLsbD 7 then (a / 1024 + 4) % 8 else a / 1024
      let bank := [m.r[0].toNat / 2 * 2, m.r[0].toNat / 2 * 2 + 1, m.r[1].toNat / 2 * 2, m.r[1].toNat / 2 * 2 + 1,
        m.r[2].toNat, m.r[3].toNat, m.r[4].toNat, m.r[5].toNat].getD w 0
      c.chrIndex a = some (bank % (8 * n) * 1024 + a % 1024))) ∧
  (∀ (c : Cart) (a : Word) (v : Byte) (n : Nat), 0x8000 ≤ a.toNat →
    (c.mapper = .nrom → c.cpuWrite n a v = c) ∧
    (∀ b, c.mapper = .uxrom b → c.cpuWrite n a v = { c with mapper := .uxrom v }) ∧
    (∀ b, c.mapper = .cnrom b → c.cpuWrite n a v = { c with mapper := .cnrom v })) ∧
  (∀ (s : State) (a : Word) (k : Nat), 0x8000 ≤ a.toNat → s.cart.prgIndex a.toNat = some k →
    s.cart.cpuRead a = some (s.cart.prgRom.read k) ∧ (busRead a s).1 = s.cart.prgRom.read k) ∧
  (∀ (p : Ppu) (c : Cart) (a : BitVec 14) (d : Byte) (now k : Nat), a.toNat < 0x2000 → c.chrIndex a.toNat = some k →
    p.busRead now a c = (c.chr.read k, c.setPpuAddress now a) ∧
      c.chrWrite a.toNat d = (if c.chrBanks8 = 0 then { c with chr := c.chr.write k d } else c))

/-- An invariant over all states that meet it, not only those that a run reaches. -/
def Obligations.StepKeepsInv : Prop :=
  ∀ s t : State, runInv s = true → step s = .next t → runInv t = true

/-- The base case of `StepKeepsInv`. It rests on the choices of log entries 1, 2, 3 and 4. -/
def Obligations.ResetInv : Prop :=
  runInv State.reset = true

/-- The ROM arrays are immutable (R572), and every step performs at least its opcode fetch (R340). -/
def Obligations.StepKeepsCartridge : Prop :=
  ∀ s t : State, step s = .next t →
    t.cart.prgRom = s.cart.prgRom ∧ t.cart.prgBanks16 = s.cart.prgBanks16 ∧ t.cart.chrBanks8 = s.cart.chrBanks8 ∧
      t.cart.battery = s.cart.battery ∧ t.cart.headerMirroring = s.cart.headerMirroring ∧
      t.cart.mapper.variant = s.cart.mapper.variant ∧ t.params = s.params ∧
      (s.cart.chrBanks8 ≠ 0 → t.cart.chr = s.cart.chr) ∧ s.cycles < t.cycles

/-- R543 to R546, with the length table of R509. -/
def Obligations.ApuChannelWrites : Prop :=
  ∀ (s : State) (d : Byte),
    let u := s.apu
    let p1 := u.p1
    let p2 := u.p2
    let tri := u.tri
    let noise := u.noise
    let dmc := u.dmc
    let put (q : Apu) : State := { s with apu := q }
    let env (e : Envelope) : Envelope := { e with constant := d.getLsbD 4, volume := d.extractLsb' 0 4 }
    let started (e : Envelope) : Envelope := { e with start := true }
    let low (period : BitVec 11) : BitVec 11 := period.extractLsb' 8 3 ++ d
    let high (period : BitVec 11) : BitVec 11 := d.extractLsb' 0 3 ++ period.extractLsb' 0 8
    let table : List Byte :=
      [10, 254, 20, 2, 40, 4, 80, 6, 160, 8, 60, 10, 14, 12, 26, 14, 12, 16, 24, 18, 48, 20, 96, 22, 192, 24, 72, 26, 16,
        28, 32, 30]
    let loaded (enabled : Bool) (length : Byte) : Byte := if enabled then table.getD (d.toNat / 8) 0 else length
    let control (p : Pulse) : Pulse :=
      { p with duty := d.extractLsb' 6 2, halt := d.getLsbD 5, env := env p.env }
    let sweep (p : Pulse) : Pulse :=
      { p with
        swEnable := d.getLsbD 7
        swPeriod := d.extractLsb' 4 3
        swNegate := d.getLsbD 3
        swShift := d.extractLsb' 0 3
        swReload := true }
    let restart (p : Pulse) : Pulse :=
      { p with period := high p.period, length := loaded p.enabled p.length, seq := 0, env := started p.env }
    deviceWrite 0x4000 d s = put { u with p1 := control p1 } ∧
    deviceWrite 0x4001 d s = put { u with p1 := sweep p1 } ∧
    deviceWrite 0x4002 d s = put { u with p1 := { p1 with period := low p1.period } } ∧
    deviceWrite 0x4003 d s = put { u with p1 := restart p1 } ∧
    deviceWrite 0x4004 d s = put { u with p2 := control p2 } ∧
    deviceWrite 0x4005 d s = put { u with p2 := sweep p2 } ∧
    deviceWrite 0x4006 d s = put { u with p2 := { p2 with period := low p2.period } } ∧
    deviceWrite 0x4007 d s = put { u with p2 := restart p2 } ∧
    deviceWrite 0x4008 d s = put { u with tri := { tri with control := d.getLsbD 7, linReload := d.extractLsb' 0 7 } } ∧
    deviceWrite 0x4009 d s = s ∧
    deviceWrite 0x400A d s = put { u with tri := { tri with period := low tri.period } } ∧
    deviceWrite 0x400B d s =
      put { u with tri := { tri with
        period := high tri.period, length := loaded tri.enabled tri.length, linReloadFlag := true } } ∧
    deviceWrite 0x400C d s = put { u with noise := { noise with halt := d.getLsbD 5, env := env noise.env } } ∧
    deviceWrite 0x400D d s = s ∧
    deviceWrite 0x400E d s =
      put { u with noise := { noise with mode := d.getLsbD 7, periodIndex := d.extractLsb' 0 4 } } ∧
    deviceWrite 0x400F d s =
      put { u with noise := { noise with length := loaded noise.enabled noise.length, env := started noise.env } } ∧
    deviceWrite 0x4010 d s =
      put { u with
        dmc := { dmc with irqEnable := d.getLsbD 7, loop := d.getLsbD 6, rateIndex := d.extractLsb' 0 4 }
        dmcIrq := u.dmcIrq && d.getLsbD 7 } ∧
    deviceWrite 0x4011 d s = put { u with dmc := { dmc with level := d.extractLsb' 0 7 } } ∧
    deviceWrite 0x4012 d s = put { u with dmc := { dmc with sampleAddr := BitVec.ofNat 16 (0xC000 + 64 * d.toNat) } } ∧
    deviceWrite 0x4013 d s = put { u with dmc := { dmc with sampleLen := BitVec.ofNat 12 (16 * d.toNat + 1) } }
end

