-- ==== Sys2Proof/Laws/Kept.lean ====
section
/-! SUPPORT. What a bus cycle that stores nothing leaves alone: the registers, every memory, and the mapping of the
cartridge. -/

namespace Sys2Proof.Machine

/-! ### The cartridge -/

/-- Two cartridges with the same memories, the same mirroring and the same mapping. -/
structure Cart.Same (c d : Cart) : Prop where
  prgRom : d.prgRom = c.prgRom
  prgBanks16 : d.prgBanks16 = c.prgBanks16
  chr : d.chr = c.chr
  chrBanks8 : d.chrBanks8 = c.chrBanks8
  prgRam : d.prgRam = c.prgRam
  battery : d.battery = c.battery
  headerMirroring : d.headerMirroring = c.headerMirroring
  mirroring : d.mirroring = c.mirroring
  prgIndex : ∀ a, d.prgIndex a = c.prgIndex a
  chrIndex : ∀ a, d.chrIndex a = c.chrIndex a

theorem Cart.Same.refl (c : Cart) : Cart.Same c c :=
  ⟨rfl, rfl, rfl, rfl, rfl, rfl, rfl, rfl, fun _ => rfl, fun _ => rfl⟩

theorem Cart.Same.trans {c d e : Cart} (h : Cart.Same c d) (k : Cart.Same d e) : Cart.Same c e :=
  ⟨k.prgRom.trans h.prgRom, k.prgBanks16.trans h.prgBanks16, k.chr.trans h.chr, k.chrBanks8.trans h.chrBanks8,
    k.prgRam.trans h.prgRam, k.battery.trans h.battery, k.headerMirroring.trans h.headerMirroring,
    k.mirroring.trans h.mirroring, fun a => (k.prgIndex a).trans (h.prgIndex a),
    fun a => (k.chrIndex a).trans (h.chrIndex a)⟩

/-- The same cartridge answers every CPU read alike. -/
theorem Cart.Same.cpuRead {c d : Cart} (h : Cart.Same c d) (a : Word) : d.cpuRead a = c.cpuRead a := by
  simp only [Cart.cpuRead, h.prgRam, h.prgIndex, h.prgRom]

theorem Cart.Same.chrRead {c d : Cart} (h : Cart.Same c d) (a : Nat) : d.chrRead a = c.chrRead a := by
  simp only [Cart.chrRead, h.chr, h.chrIndex]

theorem Mmc3.clockCounter_select (m : Mmc3) : m.clockCounter.select = m.select := rfl
theorem Mmc3.clockCounter_r (m : Mmc3) : m.clockCounter.r = m.r := rfl

theorem Mmc3.setPpuAddress_select (now : Nat) (p : BitVec 14) (m : Mmc3) :
    (m.setPpuAddress now p).select = m.select := by
  simp only [Mmc3.setPpuAddress]; split <;> rfl

theorem Mmc3.setPpuAddress_r (now : Nat) (p : BitVec 14) (m : Mmc3) : (m.setPpuAddress now p).r = m.r := by
  simp only [Mmc3.setPpuAddress]; split <;> rfl

/-- The picture unit's address bus changes only MMC3's counter. -/
theorem Cart.same_setPpuAddress (now : Nat) (p : BitVec 14) (c : Cart) : Cart.Same c (c.setPpuAddress now p) := by
  unfold Cart.setPpuAddress
  split
  · rename_i m hm
    refine ⟨rfl, rfl, rfl, rfl, rfl, rfl, rfl, rfl, fun a => ?_, fun a => ?_⟩
    · simp only [Cart.prgIndex, hm, prgMmc3, mmc3PrgBank, Mmc3.setPpuAddress_select, Mmc3.setPpuAddress_r,
        Cart.prgSize]
    · simp only [Cart.chrIndex, hm, chrMmc3, Mmc3.setPpuAddress_select, Cart.chrSize]
      congr 1
      simp only [mmc3ChrBank, Mmc3.setPpuAddress_r]
  · exact Cart.Same.refl c

/-! ### The picture unit -/

/-- The memories of the picture unit and the registers that only CPU accesses write are the same. -/
structure Ppu.Ticked (p q : Ppu) : Prop where
  oam : q.oam = p.oam
  ntRam : q.ntRam = p.ntRam
  palette : q.palette = p.palette
  ctrl : q.ctrl = p.ctrl
  mask : q.mask = p.mask
  t : q.t = p.t
  fineX : q.fineX = p.fineX
  w : q.w = p.w
  readBuffer : q.readBuffer = p.readBuffer

theorem Ppu.Ticked.refl (p : Ppu) : Ppu.Ticked p p := ⟨rfl, rfl, rfl, rfl, rfl, rfl, rfl, rfl, rfl⟩

theorem Ppu.Ticked.trans {p q r : Ppu} (h : Ppu.Ticked p q) (k : Ppu.Ticked q r) : Ppu.Ticked p r :=
  ⟨k.oam.trans h.oam, k.ntRam.trans h.ntRam, k.palette.trans h.palette, k.ctrl.trans h.ctrl, k.mask.trans h.mask,
    k.t.trans h.t, k.fineX.trans h.fineX, k.w.trans h.w, k.readBuffer.trans h.readBuffer⟩

theorem Ppu.ticked_pixelDot (p : Ppu) : Ppu.Ticked p p.pixelDot := by
  unfold Ppu.pixelDot
  split
  · dsimp only
    split <;> exact ⟨rfl, rfl, rfl, rfl, rfl, rfl, rfl, rfl, rfl⟩
  · exact Ppu.Ticked.refl p

theorem Ppu.ticked_bgFetch (now ph : Nat) (p : Ppu) (c : Cart) :
    Ppu.Ticked p (p.bgFetch now ph c).1 ∧ Cart.Same c (p.bgFetch now ph c).2 := by
  unfold Ppu.bgFetch
  split <;>
    first
    | exact ⟨⟨rfl, rfl, rfl, rfl, rfl, rfl, rfl, rfl, rfl⟩, Cart.same_setPpuAddress now _ c⟩
    | exact ⟨Ppu.Ticked.refl p, Cart.Same.refl c⟩

theorem Ppu.ticked_renderBg (now : Nat) (p : Ppu) (c : Cart) :
    Ppu.Ticked p (p.renderBg now c).1 ∧ Cart.Same c (p.renderBg now c).2 := by
  unfold Ppu.renderBg
  split
  · have h := Ppu.ticked_bgFetch now ((p.dot - 1) % 8) { p with bg := p.bg.shift } c
    exact ⟨⟨h.1.oam, h.1.ntRam, h.1.palette, h.1.ctrl, h.1.mask, h.1.t, h.1.fineX, h.1.w, h.1.readBuffer⟩, h.2⟩
  · exact ⟨Ppu.Ticked.refl p, Cart.Same.refl c⟩

theorem Ppu.ticked_renderScroll (p : Ppu) : Ppu.Ticked p p.renderScroll := by
  unfold Ppu.renderScroll
  repeat' split
  all_goals exact ⟨rfl, rfl, rfl, rfl, rfl, rfl, rfl, rfl, rfl⟩

theorem Ppu.ticked_evalStep (p : Ppu) : Ppu.Ticked p p.evalStep := by
  unfold Ppu.evalStep
  dsimp only
  repeat' split
  all_goals exact ⟨rfl, rfl, rfl, rfl, rfl, rfl, rfl, rfl, rfl⟩

theorem Ppu.ticked_spriteEvalDot (p : Ppu) : Ppu.Ticked p p.spriteEvalDot := by
  unfold Ppu.spriteEvalDot
  split
  · split <;> exact ⟨rfl, rfl, rfl, rfl, rfl, rfl, rfl, rfl, rfl⟩
  · split
    · split
      · have h : Ppu.Ticked p { p with eval := SpriteEval.zero0 } := ⟨rfl, rfl, rfl, rfl, rfl, rfl, rfl, rfl, rfl⟩
        exact h.trans (Ppu.ticked_evalStep _)
      · exact Ppu.ticked_evalStep p
    · exact Ppu.Ticked.refl p

theorem Ppu.ticked_loadSlot (i : Nat) (hi : Byte) (p : Ppu) : Ppu.Ticked p (p.loadSlot i hi) := by
  unfold Ppu.loadSlot
  dsimp only
  split <;> exact ⟨rfl, rfl, rfl, rfl, rfl, rfl, rfl, rfl, rfl⟩

theorem Ppu.ticked_spriteFetchDot (n now : Nat) (p : Ppu) (c : Cart) :
    Ppu.Ticked p (p.spriteFetchDot n now c).1 ∧ Cart.Same c (p.spriteFetchDot n now c).2 := by
  unfold Ppu.spriteFetchDot
  dsimp only
  split
  · exact ⟨⟨rfl, rfl, rfl, rfl, rfl, rfl, rfl, rfl, rfl⟩, Cart.Same.refl c⟩
  · exact ⟨Ppu.Ticked.refl p, Cart.same_setPpuAddress now _ c⟩
  · exact ⟨Ppu.Ticked.refl p, Cart.same_setPpuAddress now _ c⟩
  · exact ⟨⟨rfl, rfl, rfl, rfl, rfl, rfl, rfl, rfl, rfl⟩, Cart.same_setPpuAddress now _ c⟩
  · exact ⟨Ppu.ticked_loadSlot _ _ p, Cart.same_setPpuAddress now _ c⟩
  · exact ⟨Ppu.Ticked.refl p, Cart.Same.refl c⟩

theorem Ppu.ticked_renderDot (n now : Nat) (p : Ppu) (c : Cart) :
    Ppu.Ticked p (p.renderDot n now c).1 ∧ Cart.Same c (p.renderDot n now c).2 := by
  unfold Ppu.renderDot
  dsimp only
  have h := Ppu.ticked_renderBg now p c
  have h1 := h.1.trans (Ppu.ticked_renderScroll _)
  generalize hp1 : (p.renderBg now c).1.renderScroll = p1 at h1 ⊢
  have h2 : Ppu.Ticked p (if p.visibleLine then p1.spriteEvalDot else p1) := by
    split
    · exact h1.trans (Ppu.ticked_spriteEvalDot p1)
    · exact h1
  generalize (if p.visibleLine then p1.spriteEvalDot else p1) = p2 at h2 ⊢
  have hc : Cart.Same c (if p.dot = 337 ∨ p.dot = 339 then
      (p.renderBg now c).2.setPpuAddress now (ntAddr p1.v) else (p.renderBg now c).2) := by
    split
    · exact h.2.trans (Cart.same_setPpuAddress now _ _)
    · exact h.2
  generalize (if p.dot = 337 ∨ p.dot = 339 then
      (p.renderBg now c).2.setPpuAddress now (ntAddr p1.v) else (p.renderBg now c).2) = c1 at hc ⊢
  split
  · have k := Ppu.ticked_spriteFetchDot n now { p2 with oamAddr := 0 } c1
    have h3 : Ppu.Ticked p2 { p2 with oamAddr := 0 } := ⟨rfl, rfl, rfl, rfl, rfl, rfl, rfl, rfl, rfl⟩
    exact ⟨h2.trans (h3.trans k.1), hc.trans k.2⟩
  · exact ⟨h2, hc⟩

theorem Ppu.ticked_flagDot (p : Ppu) : Ppu.Ticked p p.flagDot := by
  unfold Ppu.flagDot
  repeat' split
  all_goals exact ⟨rfl, rfl, rfl, rfl, rfl, rfl, rfl, rfl, rfl⟩

theorem Ppu.ticked_advance (p : Ppu) : Ppu.Ticked p p.advance := by
  unfold Ppu.advance
  repeat' split
  all_goals exact ⟨rfl, rfl, rfl, rfl, rfl, rfl, rfl, rfl, rfl⟩

/-- One dot writes none of the picture unit's memories and none of the registers that the CPU writes. -/
theorem Ppu.ticked_tick (n now : Nat) (p : Ppu) (c : Cart) :
    Ppu.Ticked p (p.tick n now c).1 ∧ Cart.Same c (p.tick n now c).2 := by
  unfold Ppu.tick
  dsimp only
  have h := Ppu.ticked_pixelDot p
  have hr : Ppu.Ticked p (if p.renderingActive then p.pixelDot.renderDot n now c else (p.pixelDot, c)).1 ∧
      Cart.Same c (if p.renderingActive then p.pixelDot.renderDot n now c else (p.pixelDot, c)).2 := by
    split
    · have k := Ppu.ticked_renderDot n now p.pixelDot c
      exact ⟨h.trans k.1, k.2⟩
    · exact ⟨h, Cart.Same.refl c⟩
  exact ⟨(hr.1.trans (Ppu.ticked_flagDot _)).trans (Ppu.ticked_advance _), hr.2⟩

/-! ### The whole machine -/

/-- What a bus cycle that stores nothing leaves alone. -/
structure Kept (s t : State) : Prop where
  cpu : t.cpu = s.cpu
  ram : t.ram = s.ram
  oam : t.ppu.oam = s.ppu.oam
  ntRam : t.ppu.ntRam = s.ppu.ntRam
  palette : t.ppu.palette = s.ppu.palette
  cart : Cart.Same s.cart t.cart

theorem Kept.refl (s : State) : Kept s s := ⟨rfl, rfl, rfl, rfl, rfl, Cart.Same.refl _⟩

theorem Kept.trans {s t u : State} (h : Kept s t) (k : Kept t u) : Kept s u :=
  ⟨k.cpu.trans h.cpu, k.ram.trans h.ram, k.oam.trans h.oam, k.ntRam.trans h.ntRam, k.palette.trans h.palette,
    h.cart.trans k.cart⟩

theorem Kept.byteAt {s t : State} (h : Kept s t) : SameMem s t := by
  intro sp n
  cases sp <;> simp only [State.byteAt, h.ram, h.oam, h.ntRam, h.palette, h.cart.prgRam, h.cart.prgRom, h.cart.chr]

theorem Kept.a {s t : State} (h : Kept s t) : t.a = s.a := congrArg Cpu.a h.cpu
theorem Kept.x {s t : State} (h : Kept s t) : t.x = s.x := congrArg Cpu.x h.cpu
theorem Kept.y {s t : State} (h : Kept s t) : t.y = s.y := congrArg Cpu.y h.cpu
theorem Kept.s {s t : State} (h : Kept s t) : t.s = s.s := congrArg Cpu.s h.cpu
theorem Kept.pc {s t : State} (h : Kept s t) : t.pc = s.pc := congrArg Cpu.pc h.cpu
theorem Kept.p {s t : State} (h : Kept s t) : t.p = s.p := congrArg Cpu.p h.cpu
theorem Kept.runState {s t : State} (h : Kept s t) : t.runState = s.runState := congrArg Cpu.runState h.cpu
theorem Kept.noServiceNext {s t : State} (h : Kept s t) : t.noServiceNext = s.noServiceNext :=
  congrArg Cpu.noServiceNext h.cpu
theorem Kept.params {s t : State} (h : Kept s t) : t.params = s.params := congrArg Cpu.params h.cpu

theorem kept_tickApu (s : State) : Kept s (tickApu s) := ⟨rfl, rfl, rfl, rfl, rfl, Cart.Same.refl _⟩

theorem kept_tickPpu (s : State) : Kept s (tickPpu s) := by
  have h := Ppu.ticked_tick s.drawCount s.cycles s.ppu s.cart
  exact ⟨rfl, rfl, h.1.oam, h.1.ntRam, h.1.palette, h.2⟩

theorem kept_tickPpus (k : Nat) (s : State) : Kept s (tickPpus k s) := by
  induction k generalizing s with
  | zero => exact Kept.refl s
  | succ k ih => exact (kept_tickPpu s).trans (ih _)

theorem kept_bumpDraw (s : State) : Kept s (bumpDraw s) := ⟨rfl, rfl, rfl, rfl, rfl, Cart.Same.refl _⟩

theorem kept_readData (now : Nat) (p : Ppu) (c : Cart) :
    (p.readData now c).1.oam = p.oam ∧ (p.readData now c).1.ntRam = p.ntRam ∧
      (p.readData now c).1.palette = p.palette ∧ Cart.Same c (p.readData now c).2 := by
  unfold Ppu.readData Ppu.incrementV Ppu.busRead
  dsimp only
  repeat' split
  all_goals
    first
    | exact ⟨rfl, rfl, rfl, Cart.same_setPpuAddress now _ c⟩
    | exact ⟨rfl, rfl, rfl, (Cart.same_setPpuAddress now _ c).trans (Cart.same_setPpuAddress now _ _)⟩

theorem kept_ppuRegEffect (r : Nat) (s : State) : Kept s (ppuRegEffect r s) := by
  unfold ppuRegEffect
  split
  · exact ⟨rfl, rfl, rfl, rfl, rfl, Cart.Same.refl _⟩
  · exact Kept.refl s
  · have h := kept_readData s.cycles s.ppu s.cart
    exact ⟨rfl, rfl, h.1, h.2.1, h.2.2.1, h.2.2.2⟩
  · exact kept_bumpDraw s

/-- No read of a device stores to a memory or writes a CPU register. -/
theorem kept_deviceEffect (addr : Word) (s : State) : Kept s (deviceEffect addr s) := by
  unfold deviceEffect
  split
  · exact Kept.refl s
  · split
    · exact kept_ppuRegEffect _ s
    · repeat' split
      all_goals
        first
        | exact Kept.refl s
        | exact kept_bumpDraw s
        | exact ⟨rfl, rfl, rfl, rfl, rfl, Cart.Same.refl _⟩

theorem kept_captureInterrupts (s : State) : Kept s (captureInterrupts s) := ⟨rfl, rfl, rfl, rfl, rfl, Cart.Same.refl _⟩

theorem kept_pollInterrupts (s : State) : Kept s (pollInterrupts s) := ⟨rfl, rfl, rfl, rfl, rfl, Cart.Same.refl _⟩

theorem kept_cycleStart (s : State) : Kept s (cycleStart s) := ⟨rfl, rfl, rfl, rfl, rfl, Cart.Same.refl _⟩

theorem kept_countDown (s : State) : Kept s (countDown s) := ⟨rfl, rfl, rfl, rfl, rfl, Cart.Same.refl _⟩

/-- The state in which a read bus cycle reaches the device. -/
def atRead (suppress : Bool) (s : State) : State :=
  tickPpus s.params.readSplit.val (if suppress then s else captureInterrupts s)

theorem kept_atRead (suppress : Bool) (s : State) : Kept s (atRead suppress s) := by
  unfold atRead
  cases suppress
  · exact (kept_captureInterrupts s).trans (kept_tickPpus _ _)
  · exact kept_tickPpus _ s

theorem finishRead_fst (suppress : Bool) (addr : Word) (s : State) :
    (finishRead suppress addr s).1 = deviceValue addr (atRead suppress s) := rfl

theorem kept_finishRead (suppress : Bool) (addr : Word) (s : State) : Kept s (finishRead suppress addr s).2 :=
  (kept_atRead suppress s).trans
    ((kept_deviceEffect addr _).trans ((kept_tickPpus _ _).trans (kept_pollInterrupts _)))

theorem kept_stallRead (addr : Word) (s : State) : Kept s (stallRead addr s).2 :=
  (kept_cycleStart s).trans (kept_finishRead false addr _)

theorem kept_idleCycle (s : State) : Kept s (idleCycle s) :=
  (kept_cycleStart s).trans ((kept_captureInterrupts _).trans ((kept_tickPpus 3 _).trans (kept_pollInterrupts _)))

theorem kept_oamRead (addr : Word) (s : State) : Kept s (oamRead addr s).2 :=
  (kept_cycleStart s).trans ((kept_countDown _).trans (kept_finishRead false addr _))

theorem kept_dmcDeliver (v : Byte) (s : State) : Kept s (dmcDeliver v s) := ⟨rfl, rfl, rfl, rfl, rfl, Cart.Same.refl _⟩

theorem kept_dmcFetched (r : Byte × State) : Kept r.2 (dmcFetched r) := ⟨rfl, rfl, rfl, rfl, rfl, Cart.Same.refl _⟩

theorem kept_stallDummy (addr : Word) (s : State) : Kept s (stallDummy addr s) := by
  unfold stallDummy
  split
  · exact kept_stallRead addr s
  · exact kept_idleCycle s

theorem kept_dmcStall (addr : Word) (s : State) : Kept s (dmcStall addr s) :=
  (kept_stallDummy addr s).trans ((kept_stallDummy addr _).trans ((kept_stallDummy addr _).trans
    ((kept_stallRead _ _).trans (kept_dmcFetched _))))

theorem kept_serviceDmc (addr : Word) (s : State) : Kept s (serviceDmc addr s) := by
  unfold serviceDmc
  repeat' split
  · exact kept_countDown s
  · exact kept_dmcStall addr s
  · exact Kept.refl s

/-- A read bus cycle, whatever DMC stall it takes, leaves every register and every memory alone. -/
theorem kept_busReadWith (suppress : Bool) (addr : Word) (s : State) : Kept s (busReadWith suppress addr s).2 :=
  (kept_cycleStart s).trans ((kept_serviceDmc addr _).trans (kept_finishRead suppress addr _))

theorem kept_busRead (addr : Word) (s : State) : Kept s (busRead addr s).2 := kept_busReadWith false addr s

theorem kept_dummyRead (addr : Word) (s : State) : Kept s (dummyRead addr s) := kept_busRead addr s

/-! ### What a read answers -/

/-- The state in which the device answers `Read(addr)`. -/
theorem busRead_fst (addr : Word) (s : State) :
    (busRead addr s).1 = deviceValue addr (atRead false (serviceDmc addr (cycleStart s))) := rfl

theorem kept_reached (suppress : Bool) (addr : Word) (s : State) :
    Kept s (atRead suppress (serviceDmc addr (cycleStart s))) :=
  (kept_cycleStart s).trans ((kept_serviceDmc addr _).trans (kept_atRead suppress _))

/-- A read of internal RAM returns its byte. -/
theorem busRead_ram (addr : Word) (s : State) (h : addr.toNat < 0x2000) :
    (busRead addr s).1 = s.ram.read (addr.toNat % 0x800) := by
  rw [busRead_fst, deviceValue, if_pos h, (kept_reached false addr s).ram]

/-- From $4020 on the cartridge answers, or the bus is open. -/
theorem deviceValue_cart (addr : Word) (s : State) (h : 0x4020 ≤ addr.toNat) :
    deviceValue addr s = (s.cart.cpuRead addr).getD (drawn s) := by
  unfold deviceValue
  repeat' split
  all_goals first | rfl | omega

/-- A read of a mapped cartridge address returns its byte. -/
theorem busRead_cart (addr : Word) (s : State) (v : Byte) (h : 0x4020 ≤ addr.toNat) (hv : s.cart.cpuRead addr = some v) :
    (busRead addr s).1 = v := by
  rw [busRead_fst, deviceValue_cart addr _ h, (kept_reached false addr s).cart.cpuRead, hv]
  rfl

theorem deviceValue_plain (addr : Word) (s t : State) (h : plainMemory addr s) (k : Kept s t) :
    deviceValue addr t = deviceValue addr s := by
  by_cases h1 : addr.toNat < 0x2000
  · rw [deviceValue, if_pos h1, deviceValue, if_pos h1, k.ram]
  · simp only [plainMemory, Bool.or_eq_true, Bool.and_eq_true, decide_eq_true_eq, h1, false_or] at h
    obtain ⟨v, hv⟩ := Option.isSome_iff_exists.mp h.2
    rw [deviceValue_cart addr t h.1, deviceValue_cart addr s h.1, k.cart.cpuRead, hv]
    rfl

/-- A read of plain memory returns what a peek returns. -/
theorem busRead_plain (addr : Word) (s : State) (h : plainMemory addr s) : (busRead addr s).1 = peek addr s := by
  rw [busRead_fst, peek]
  exact deviceValue_plain addr s _ h (kept_reached false addr s)

theorem plainMemory_kept (addr : Word) {s t : State} (k : Kept s t) : plainMemory addr t = plainMemory addr s := by
  simp only [plainMemory, k.cart.cpuRead]

end Sys2Proof.Machine
end

