-- ==== Sys2Proof/Laws/Mem.lean ====
section
/-! SUPPORT. The laws of one memory: reading after writing, and that every operation keeps the canonical form and
the size. -/

namespace Sys2Proof.Machine

/-! ### Reading after writing -/

theorem Memory.read_cons_same (a : Nat) (v : Byte) (m : Memory) (h : v ≠ Memory.unlisted ∨ m.read a = v) :
    (Memory.cons a v m).read a = v := by
  unfold Memory.cons
  split
  · rcases h with h | h
    · contradiction
    · exact h
  · simp [Memory.read]

theorem Memory.read_cons_other (a b : Nat) (v : Byte) (m : Memory) (h : b ≠ a) :
    (Memory.cons a v m).read b = m.read b := by
  unfold Memory.cons
  split
  · rfl
  · simp [Memory.read, Ne.symm h]

/-- A write leaves every other address alone, in any list of cells. -/
theorem Memory.read_write_other (m : Memory) (a b : Nat) (v : Byte) (h : b ≠ a) :
    (m.write a v).read b = m.read b := by
  induction m with
  | nil => exact Memory.read_cons_other a b v [] h
  | cons c m ih =>
    unfold Memory.write
    split
    · exact Memory.read_cons_other a b v (c :: m) h
    · split
      · rename_i h1 h2
        rw [Memory.read_cons_other a b v m h]
        simp [Memory.read, ← h2, Ne.symm h]
      · simp only [Memory.read, ih]

/-- Below the first listed address every byte is the unlisted one. -/
theorem Memory.read_below (m : Memory) (lo a : Nat) (hm : Memory.wfFrom lo m) (h : a < lo) :
    m.read a = Memory.unlisted := by
  induction m generalizing lo with
  | nil => rfl
  | cons c m ih =>
    simp only [Memory.wfFrom, Bool.and_eq_true, decide_eq_true_eq] at hm
    rw [Memory.read, if_neg (by omega)]
    exact ih (c.1 + 1) hm.2 (by omega)

theorem Memory.read_write_same_from (m : Memory) (lo a : Nat) (v : Byte) (hm : Memory.wfFrom lo m) :
    (m.write a v).read a = v := by
  induction m generalizing lo with
  | nil =>
    apply Memory.read_cons_same
    by_cases hv : v = Memory.unlisted
    · exact .inr hv.symm
    · exact .inl hv
  | cons c m ih =>
    simp only [Memory.wfFrom, Bool.and_eq_true, decide_eq_true_eq] at hm
    have below : a ≤ c.1 → v = Memory.unlisted → Memory.read m a = v := fun hle hv => by
      rw [Memory.read_below m (c.1 + 1) a hm.2 (by omega), hv]
    unfold Memory.write
    split
    · apply Memory.read_cons_same
      by_cases hv : v = Memory.unlisted
      · refine .inr ?_
        rw [Memory.read, if_neg (by omega)]
        exact below (by omega) hv
      · exact .inl hv
    · split
      · apply Memory.read_cons_same
        by_cases hv : v = Memory.unlisted
        · exact .inr (below (by omega) hv)
        · exact .inl hv
      · rw [Memory.read, if_neg (by omega)]
        exact ih _ hm.2

/-- A canonical memory reads back what was written. -/
theorem Memory.read_write_same (m : Memory) (a : Nat) (v : Byte) (hm : m.wf) : (m.write a v).read a = v :=
  Memory.read_write_same_from m 0 a v hm

/-! ### The canonical form -/

theorem Memory.wfFrom_mono (m : Memory) (lo lo' : Nat) (h : lo' ≤ lo) (hm : Memory.wfFrom lo m) :
    Memory.wfFrom lo' m := by
  cases m with
  | nil => rfl
  | cons c m =>
    simp only [Memory.wfFrom, Bool.and_eq_true, decide_eq_true_eq] at hm ⊢
    exact ⟨⟨by omega, hm.1.2⟩, hm.2⟩

theorem Memory.wfFrom_cons (m : Memory) (lo a : Nat) (v : Byte) (h : lo ≤ a) (hm : Memory.wfFrom (a + 1) m) :
    Memory.wfFrom lo (Memory.cons a v m) := by
  unfold Memory.cons
  split
  · exact Memory.wfFrom_mono m (a + 1) lo (by omega) hm
  · simp only [Memory.wfFrom, Bool.and_eq_true, decide_eq_true_eq]
    exact ⟨⟨h, by assumption⟩, hm⟩

theorem Memory.wfFrom_write (m : Memory) (lo a : Nat) (v : Byte) (h : lo ≤ a) (hm : Memory.wfFrom lo m) :
    Memory.wfFrom lo (m.write a v) := by
  induction m generalizing lo with
  | nil => exact Memory.wfFrom_cons [] lo a v h rfl
  | cons c m ih =>
    have hc := hm
    simp only [Memory.wfFrom, Bool.and_eq_true, decide_eq_true_eq] at hc
    unfold Memory.write
    split
    · apply Memory.wfFrom_cons _ _ _ _ h
      simp only [Memory.wfFrom, Bool.and_eq_true, decide_eq_true_eq]
      exact ⟨⟨by omega, hc.1.2⟩, hc.2⟩
    · split
      · rename_i _ heq
        exact Memory.wfFrom_cons m lo a v h (heq ▸ hc.2)
      · simp only [Memory.wfFrom, Bool.and_eq_true, decide_eq_true_eq]
        exact ⟨hc.1, ih _ (by omega) hc.2⟩

/-- Every write keeps the canonical form. -/
theorem Memory.wf_write (m : Memory) (a : Nat) (v : Byte) (hm : m.wf) : (m.write a v).wf :=
  Memory.wfFrom_write m 0 a v (by omega) hm

/-- Memories built from bytes are canonical. -/
theorem Memory.wfFrom_ofBytes (bytes : List Byte) (a : Nat) : Memory.wfFrom a (Memory.ofBytes a bytes) := by
  induction bytes generalizing a with
  | nil => rfl
  | cons b bs ih => exact Memory.wfFrom_cons _ a a b (by omega) (ih (a + 1))

theorem Memory.wf_ofBytes (bytes : List Byte) : (Memory.ofBytes 0 bytes).wf := Memory.wfFrom_ofBytes bytes 0

/-! ### What holds of every listed cell -/

/-- A write keeps a property of all listed cells that the new cell has. -/
theorem Memory.all_write (m : Memory) (q : Host.Cell → Bool) (a : Nat) (v : Byte) (hq : q (a, v)) (hm : m.all q) :
    (m.write a v).all q := by
  have cons : ∀ m' : Memory, m'.all q → (Memory.cons a v m').all q := fun m' h => by
    unfold Memory.cons
    split
    · exact h
    · simp only [List.all_cons, Bool.and_eq_true]
      exact ⟨hq, h⟩
  induction m with
  | nil => exact cons [] rfl
  | cons c m ih =>
    have hc := hm
    simp only [List.all_cons, Bool.and_eq_true] at hc
    unfold Memory.write
    split
    · exact cons _ hm
    · split
      · exact cons m hc.2
      · simp only [List.all_cons, Bool.and_eq_true]
        exact ⟨hc.1, ih hc.2⟩

/-- A write within the size keeps the size. -/
theorem Memory.below_write (m : Memory) (n a : Nat) (v : Byte) (h : a < n) (hm : m.below n) :
    (m.write a v).below n :=
  Memory.all_write m _ a v (by simpa using h) hm

/-- The size bounds every address that holds another byte than the unlisted one. -/
theorem Memory.read_outside (m : Memory) (n a : Nat) (hm : m.below n) (h : n ≤ a) : m.read a = Memory.unlisted := by
  induction m with
  | nil => rfl
  | cons c m ih =>
    simp only [Memory.below, List.all_cons, Bool.and_eq_true, decide_eq_true_eq] at hm
    rw [Memory.read, if_neg (by omega)]
    exact ih hm.2

end Sys2Proof.Machine
end

