-- ==== Sys2Proof/Laws/State.lean ====
section
/-! SUPPORT. One lemma per field per register update, all true by definition, and what each update does to the
registers as one value. -/

namespace Sys2Proof.Machine

/-! ### `State.setA` -/

@[simp] theorem State.setA_a (v : Byte) (t : State) : (State.setA v t).a = v := rfl
@[simp] theorem State.setA_x (v : Byte) (t : State) : (State.setA v t).x = t.x := rfl
@[simp] theorem State.setA_y (v : Byte) (t : State) : (State.setA v t).y = t.y := rfl
@[simp] theorem State.setA_s (v : Byte) (t : State) : (State.setA v t).s = t.s := rfl
@[simp] theorem State.setA_pc (v : Byte) (t : State) : (State.setA v t).pc = t.pc := rfl
@[simp] theorem State.setA_p (v : Byte) (t : State) : (State.setA v t).p = t.p := rfl
@[simp] theorem State.setA_ram (v : Byte) (t : State) : (State.setA v t).ram = t.ram := rfl
@[simp] theorem State.setA_nmiLine (v : Byte) (t : State) : (State.setA v t).nmiLine = t.nmiLine := rfl
@[simp] theorem State.setA_nmiRaised (v : Byte) (t : State) : (State.setA v t).nmiRaised = t.nmiRaised := rfl
@[simp] theorem State.setA_nmiPending (v : Byte) (t : State) : (State.setA v t).nmiPending = t.nmiPending := rfl
@[simp] theorem State.setA_irqRaised (v : Byte) (t : State) : (State.setA v t).irqRaised = t.irqRaised := rfl
@[simp] theorem State.setA_irqPending (v : Byte) (t : State) : (State.setA v t).irqPending = t.irqPending := rfl
@[simp] theorem State.setA_dmaDelay (v : Byte) (t : State) : (State.setA v t).dmaDelay = t.dmaDelay := rfl
@[simp] theorem State.setA_dmcRequest (v : Byte) (t : State) : (State.setA v t).dmcRequest = t.dmcRequest := rfl
@[simp] theorem State.setA_cycles (v : Byte) (t : State) : (State.setA v t).cycles = t.cycles := rfl
@[simp] theorem State.setA_runState (v : Byte) (t : State) : (State.setA v t).runState = t.runState := rfl
@[simp] theorem State.setA_noServiceNext (v : Byte) (t : State) : (State.setA v t).noServiceNext = t.noServiceNext := rfl
@[simp] theorem State.setA_strobe (v : Byte) (t : State) : (State.setA v t).strobe = t.strobe := rfl
@[simp] theorem State.setA_pad1 (v : Byte) (t : State) : (State.setA v t).pad1 = t.pad1 := rfl
@[simp] theorem State.setA_pad2 (v : Byte) (t : State) : (State.setA v t).pad2 = t.pad2 := rfl
@[simp] theorem State.setA_ppu (v : Byte) (t : State) : (State.setA v t).ppu = t.ppu := rfl
@[simp] theorem State.setA_apu (v : Byte) (t : State) : (State.setA v t).apu = t.apu := rfl
@[simp] theorem State.setA_cart (v : Byte) (t : State) : (State.setA v t).cart = t.cart := rfl
@[simp] theorem State.setA_params (v : Byte) (t : State) : (State.setA v t).params = t.params := rfl
@[simp] theorem State.setA_drawCount (v : Byte) (t : State) : (State.setA v t).drawCount = t.drawCount := rfl
@[simp] theorem State.setA_cpu (v : Byte) (t : State) : (State.setA v t).cpu = { t.cpu with a := v } := rfl
@[simp] theorem State.setA_byteAt (v : Byte) (t : State) (sp : Space) (n : Nat) :
    (State.setA v t).byteAt sp n = t.byteAt sp n := rfl

/-! ### `State.setX` -/

@[simp] theorem State.setX_a (v : Byte) (t : State) : (State.setX v t).a = t.a := rfl
@[simp] theorem State.setX_x (v : Byte) (t : State) : (State.setX v t).x = v := rfl
@[simp] theorem State.setX_y (v : Byte) (t : State) : (State.setX v t).y = t.y := rfl
@[simp] theorem State.setX_s (v : Byte) (t : State) : (State.setX v t).s = t.s := rfl
@[simp] theorem State.setX_pc (v : Byte) (t : State) : (State.setX v t).pc = t.pc := rfl
@[simp] theorem State.setX_p (v : Byte) (t : State) : (State.setX v t).p = t.p := rfl
@[simp] theorem State.setX_ram (v : Byte) (t : State) : (State.setX v t).ram = t.ram := rfl
@[simp] theorem State.setX_nmiLine (v : Byte) (t : State) : (State.setX v t).nmiLine = t.nmiLine := rfl
@[simp] theorem State.setX_nmiRaised (v : Byte) (t : State) : (State.setX v t).nmiRaised = t.nmiRaised := rfl
@[simp] theorem State.setX_nmiPending (v : Byte) (t : State) : (State.setX v t).nmiPending = t.nmiPending := rfl
@[simp] theorem State.setX_irqRaised (v : Byte) (t : State) : (State.setX v t).irqRaised = t.irqRaised := rfl
@[simp] theorem State.setX_irqPending (v : Byte) (t : State) : (State.setX v t).irqPending = t.irqPending := rfl
@[simp] theorem State.setX_dmaDelay (v : Byte) (t : State) : (State.setX v t).dmaDelay = t.dmaDelay := rfl
@[simp] theorem State.setX_dmcRequest (v : Byte) (t : State) : (State.setX v t).dmcRequest = t.dmcRequest := rfl
@[simp] theorem State.setX_cycles (v : Byte) (t : State) : (State.setX v t).cycles = t.cycles := rfl
@[simp] theorem State.setX_runState (v : Byte) (t : State) : (State.setX v t).runState = t.runState := rfl
@[simp] theorem State.setX_noServiceNext (v : Byte) (t : State) : (State.setX v t).noServiceNext = t.noServiceNext := rfl
@[simp] theorem State.setX_strobe (v : Byte) (t : State) : (State.setX v t).strobe = t.strobe := rfl
@[simp] theorem State.setX_pad1 (v : Byte) (t : State) : (State.setX v t).pad1 = t.pad1 := rfl
@[simp] theorem State.setX_pad2 (v : Byte) (t : State) : (State.setX v t).pad2 = t.pad2 := rfl
@[simp] theorem State.setX_ppu (v : Byte) (t : State) : (State.setX v t).ppu = t.ppu := rfl
@[simp] theorem State.setX_apu (v : Byte) (t : State) : (State.setX v t).apu = t.apu := rfl
@[simp] theorem State.setX_cart (v : Byte) (t : State) : (State.setX v t).cart = t.cart := rfl
@[simp] theorem State.setX_params (v : Byte) (t : State) : (State.setX v t).params = t.params := rfl
@[simp] theorem State.setX_drawCount (v : Byte) (t : State) : (State.setX v t).drawCount = t.drawCount := rfl
@[simp] theorem State.setX_cpu (v : Byte) (t : State) : (State.setX v t).cpu = { t.cpu with x := v } := rfl
@[simp] theorem State.setX_byteAt (v : Byte) (t : State) (sp : Space) (n : Nat) :
    (State.setX v t).byteAt sp n = t.byteAt sp n := rfl

/-! ### `State.setY` -/

@[simp] theorem State.setY_a (v : Byte) (t : State) : (State.setY v t).a = t.a := rfl
@[simp] theorem State.setY_x (v : Byte) (t : State) : (State.setY v t).x = t.x := rfl
@[simp] theorem State.setY_y (v : Byte) (t : State) : (State.setY v t).y = v := rfl
@[simp] theorem State.setY_s (v : Byte) (t : State) : (State.setY v t).s = t.s := rfl
@[simp] theorem State.setY_pc (v : Byte) (t : State) : (State.setY v t).pc = t.pc := rfl
@[simp] theorem State.setY_p (v : Byte) (t : State) : (State.setY v t).p = t.p := rfl
@[simp] theorem State.setY_ram (v : Byte) (t : State) : (State.setY v t).ram = t.ram := rfl
@[simp] theorem State.setY_nmiLine (v : Byte) (t : State) : (State.setY v t).nmiLine = t.nmiLine := rfl
@[simp] theorem State.setY_nmiRaised (v : Byte) (t : State) : (State.setY v t).nmiRaised = t.nmiRaised := rfl
@[simp] theorem State.setY_nmiPending (v : Byte) (t : State) : (State.setY v t).nmiPending = t.nmiPending := rfl
@[simp] theorem State.setY_irqRaised (v : Byte) (t : State) : (State.setY v t).irqRaised = t.irqRaised := rfl
@[simp] theorem State.setY_irqPending (v : Byte) (t : State) : (State.setY v t).irqPending = t.irqPending := rfl
@[simp] theorem State.setY_dmaDelay (v : Byte) (t : State) : (State.setY v t).dmaDelay = t.dmaDelay := rfl
@[simp] theorem State.setY_dmcRequest (v : Byte) (t : State) : (State.setY v t).dmcRequest = t.dmcRequest := rfl
@[simp] theorem State.setY_cycles (v : Byte) (t : State) : (State.setY v t).cycles = t.cycles := rfl
@[simp] theorem State.setY_runState (v : Byte) (t : State) : (State.setY v t).runState = t.runState := rfl
@[simp] theorem State.setY_noServiceNext (v : Byte) (t : State) : (State.setY v t).noServiceNext = t.noServiceNext := rfl
@[simp] theorem State.setY_strobe (v : Byte) (t : State) : (State.setY v t).strobe = t.strobe := rfl
@[simp] theorem State.setY_pad1 (v : Byte) (t : State) : (State.setY v t).pad1 = t.pad1 := rfl
@[simp] theorem State.setY_pad2 (v : Byte) (t : State) : (State.setY v t).pad2 = t.pad2 := rfl
@[simp] theorem State.setY_ppu (v : Byte) (t : State) : (State.setY v t).ppu = t.ppu := rfl
@[simp] theorem State.setY_apu (v : Byte) (t : State) : (State.setY v t).apu = t.apu := rfl
@[simp] theorem State.setY_cart (v : Byte) (t : State) : (State.setY v t).cart = t.cart := rfl
@[simp] theorem State.setY_params (v : Byte) (t : State) : (State.setY v t).params = t.params := rfl
@[simp] theorem State.setY_drawCount (v : Byte) (t : State) : (State.setY v t).drawCount = t.drawCount := rfl
@[simp] theorem State.setY_cpu (v : Byte) (t : State) : (State.setY v t).cpu = { t.cpu with y := v } := rfl
@[simp] theorem State.setY_byteAt (v : Byte) (t : State) (sp : Space) (n : Nat) :
    (State.setY v t).byteAt sp n = t.byteAt sp n := rfl

/-! ### `State.setS` -/

@[simp] theorem State.setS_a (v : Byte) (t : State) : (State.setS v t).a = t.a := rfl
@[simp] theorem State.setS_x (v : Byte) (t : State) : (State.setS v t).x = t.x := rfl
@[simp] theorem State.setS_y (v : Byte) (t : State) : (State.setS v t).y = t.y := rfl
@[simp] theorem State.setS_s (v : Byte) (t : State) : (State.setS v t).s = v := rfl
@[simp] theorem State.setS_pc (v : Byte) (t : State) : (State.setS v t).pc = t.pc := rfl
@[simp] theorem State.setS_p (v : Byte) (t : State) : (State.setS v t).p = t.p := rfl
@[simp] theorem State.setS_ram (v : Byte) (t : State) : (State.setS v t).ram = t.ram := rfl
@[simp] theorem State.setS_nmiLine (v : Byte) (t : State) : (State.setS v t).nmiLine = t.nmiLine := rfl
@[simp] theorem State.setS_nmiRaised (v : Byte) (t : State) : (State.setS v t).nmiRaised = t.nmiRaised := rfl
@[simp] theorem State.setS_nmiPending (v : Byte) (t : State) : (State.setS v t).nmiPending = t.nmiPending := rfl
@[simp] theorem State.setS_irqRaised (v : Byte) (t : State) : (State.setS v t).irqRaised = t.irqRaised := rfl
@[simp] theorem State.setS_irqPending (v : Byte) (t : State) : (State.setS v t).irqPending = t.irqPending := rfl
@[simp] theorem State.setS_dmaDelay (v : Byte) (t : State) : (State.setS v t).dmaDelay = t.dmaDelay := rfl
@[simp] theorem State.setS_dmcRequest (v : Byte) (t : State) : (State.setS v t).dmcRequest = t.dmcRequest := rfl
@[simp] theorem State.setS_cycles (v : Byte) (t : State) : (State.setS v t).cycles = t.cycles := rfl
@[simp] theorem State.setS_runState (v : Byte) (t : State) : (State.setS v t).runState = t.runState := rfl
@[simp] theorem State.setS_noServiceNext (v : Byte) (t : State) : (State.setS v t).noServiceNext = t.noServiceNext := rfl
@[simp] theorem State.setS_strobe (v : Byte) (t : State) : (State.setS v t).strobe = t.strobe := rfl
@[simp] theorem State.setS_pad1 (v : Byte) (t : State) : (State.setS v t).pad1 = t.pad1 := rfl
@[simp] theorem State.setS_pad2 (v : Byte) (t : State) : (State.setS v t).pad2 = t.pad2 := rfl
@[simp] theorem State.setS_ppu (v : Byte) (t : State) : (State.setS v t).ppu = t.ppu := rfl
@[simp] theorem State.setS_apu (v : Byte) (t : State) : (State.setS v t).apu = t.apu := rfl
@[simp] theorem State.setS_cart (v : Byte) (t : State) : (State.setS v t).cart = t.cart := rfl
@[simp] theorem State.setS_params (v : Byte) (t : State) : (State.setS v t).params = t.params := rfl
@[simp] theorem State.setS_drawCount (v : Byte) (t : State) : (State.setS v t).drawCount = t.drawCount := rfl
@[simp] theorem State.setS_cpu (v : Byte) (t : State) : (State.setS v t).cpu = { t.cpu with s := v } := rfl
@[simp] theorem State.setS_byteAt (v : Byte) (t : State) (sp : Space) (n : Nat) :
    (State.setS v t).byteAt sp n = t.byteAt sp n := rfl

/-! ### `State.setPc` -/

@[simp] theorem State.setPc_a (v : Word) (t : State) : (State.setPc v t).a = t.a := rfl
@[simp] theorem State.setPc_x (v : Word) (t : State) : (State.setPc v t).x = t.x := rfl
@[simp] theorem State.setPc_y (v : Word) (t : State) : (State.setPc v t).y = t.y := rfl
@[simp] theorem State.setPc_s (v : Word) (t : State) : (State.setPc v t).s = t.s := rfl
@[simp] theorem State.setPc_pc (v : Word) (t : State) : (State.setPc v t).pc = v := rfl
@[simp] theorem State.setPc_p (v : Word) (t : State) : (State.setPc v t).p = t.p := rfl
@[simp] theorem State.setPc_ram (v : Word) (t : State) : (State.setPc v t).ram = t.ram := rfl
@[simp] theorem State.setPc_nmiLine (v : Word) (t : State) : (State.setPc v t).nmiLine = t.nmiLine := rfl
@[simp] theorem State.setPc_nmiRaised (v : Word) (t : State) : (State.setPc v t).nmiRaised = t.nmiRaised := rfl
@[simp] theorem State.setPc_nmiPending (v : Word) (t : State) : (State.setPc v t).nmiPending = t.nmiPending := rfl
@[simp] theorem State.setPc_irqRaised (v : Word) (t : State) : (State.setPc v t).irqRaised = t.irqRaised := rfl
@[simp] theorem State.setPc_irqPending (v : Word) (t : State) : (State.setPc v t).irqPending = t.irqPending := rfl
@[simp] theorem State.setPc_dmaDelay (v : Word) (t : State) : (State.setPc v t).dmaDelay = t.dmaDelay := rfl
@[simp] theorem State.setPc_dmcRequest (v : Word) (t : State) : (State.setPc v t).dmcRequest = t.dmcRequest := rfl
@[simp] theorem State.setPc_cycles (v : Word) (t : State) : (State.setPc v t).cycles = t.cycles := rfl
@[simp] theorem State.setPc_runState (v : Word) (t : State) : (State.setPc v t).runState = t.runState := rfl
@[simp] theorem State.setPc_noServiceNext (v : Word) (t : State) : (State.setPc v t).noServiceNext = t.noServiceNext := rfl
@[simp] theorem State.setPc_strobe (v : Word) (t : State) : (State.setPc v t).strobe = t.strobe := rfl
@[simp] theorem State.setPc_pad1 (v : Word) (t : State) : (State.setPc v t).pad1 = t.pad1 := rfl
@[simp] theorem State.setPc_pad2 (v : Word) (t : State) : (State.setPc v t).pad2 = t.pad2 := rfl
@[simp] theorem State.setPc_ppu (v : Word) (t : State) : (State.setPc v t).ppu = t.ppu := rfl
@[simp] theorem State.setPc_apu (v : Word) (t : State) : (State.setPc v t).apu = t.apu := rfl
@[simp] theorem State.setPc_cart (v : Word) (t : State) : (State.setPc v t).cart = t.cart := rfl
@[simp] theorem State.setPc_params (v : Word) (t : State) : (State.setPc v t).params = t.params := rfl
@[simp] theorem State.setPc_drawCount (v : Word) (t : State) : (State.setPc v t).drawCount = t.drawCount := rfl
@[simp] theorem State.setPc_cpu (v : Word) (t : State) : (State.setPc v t).cpu = { t.cpu with pc := v } := rfl
@[simp] theorem State.setPc_byteAt (v : Word) (t : State) (sp : Space) (n : Nat) :
    (State.setPc v t).byteAt sp n = t.byteAt sp n := rfl

/-! ### `State.setP` -/

@[simp] theorem State.setP_a (f : Flags) (t : State) : (State.setP f t).a = t.a := rfl
@[simp] theorem State.setP_x (f : Flags) (t : State) : (State.setP f t).x = t.x := rfl
@[simp] theorem State.setP_y (f : Flags) (t : State) : (State.setP f t).y = t.y := rfl
@[simp] theorem State.setP_s (f : Flags) (t : State) : (State.setP f t).s = t.s := rfl
@[simp] theorem State.setP_pc (f : Flags) (t : State) : (State.setP f t).pc = t.pc := rfl
@[simp] theorem State.setP_p (f : Flags) (t : State) : (State.setP f t).p = f := rfl
@[simp] theorem State.setP_ram (f : Flags) (t : State) : (State.setP f t).ram = t.ram := rfl
@[simp] theorem State.setP_nmiLine (f : Flags) (t : State) : (State.setP f t).nmiLine = t.nmiLine := rfl
@[simp] theorem State.setP_nmiRaised (f : Flags) (t : State) : (State.setP f t).nmiRaised = t.nmiRaised := rfl
@[simp] theorem State.setP_nmiPending (f : Flags) (t : State) : (State.setP f t).nmiPending = t.nmiPending := rfl
@[simp] theorem State.setP_irqRaised (f : Flags) (t : State) : (State.setP f t).irqRaised = t.irqRaised := rfl
@[simp] theorem State.setP_irqPending (f : Flags) (t : State) : (State.setP f t).irqPending = t.irqPending := rfl
@[simp] theorem State.setP_dmaDelay (f : Flags) (t : State) : (State.setP f t).dmaDelay = t.dmaDelay := rfl
@[simp] theorem State.setP_dmcRequest (f : Flags) (t : State) : (State.setP f t).dmcRequest = t.dmcRequest := rfl
@[simp] theorem State.setP_cycles (f : Flags) (t : State) : (State.setP f t).cycles = t.cycles := rfl
@[simp] theorem State.setP_runState (f : Flags) (t : State) : (State.setP f t).runState = t.runState := rfl
@[simp] theorem State.setP_noServiceNext (f : Flags) (t : State) : (State.setP f t).noServiceNext = t.noServiceNext := rfl
@[simp] theorem State.setP_strobe (f : Flags) (t : State) : (State.setP f t).strobe = t.strobe := rfl
@[simp] theorem State.setP_pad1 (f : Flags) (t : State) : (State.setP f t).pad1 = t.pad1 := rfl
@[simp] theorem State.setP_pad2 (f : Flags) (t : State) : (State.setP f t).pad2 = t.pad2 := rfl
@[simp] theorem State.setP_ppu (f : Flags) (t : State) : (State.setP f t).ppu = t.ppu := rfl
@[simp] theorem State.setP_apu (f : Flags) (t : State) : (State.setP f t).apu = t.apu := rfl
@[simp] theorem State.setP_cart (f : Flags) (t : State) : (State.setP f t).cart = t.cart := rfl
@[simp] theorem State.setP_params (f : Flags) (t : State) : (State.setP f t).params = t.params := rfl
@[simp] theorem State.setP_drawCount (f : Flags) (t : State) : (State.setP f t).drawCount = t.drawCount := rfl
@[simp] theorem State.setP_cpu (f : Flags) (t : State) : (State.setP f t).cpu = { t.cpu with p := f } := rfl
@[simp] theorem State.setP_byteAt (f : Flags) (t : State) (sp : Space) (n : Nat) :
    (State.setP f t).byteAt sp n = t.byteAt sp n := rfl

/-! ### `State.setNZ` -/

@[simp] theorem State.setNZ_a (v : Byte) (t : State) : (State.setNZ v t).a = t.a := rfl
@[simp] theorem State.setNZ_x (v : Byte) (t : State) : (State.setNZ v t).x = t.x := rfl
@[simp] theorem State.setNZ_y (v : Byte) (t : State) : (State.setNZ v t).y = t.y := rfl
@[simp] theorem State.setNZ_s (v : Byte) (t : State) : (State.setNZ v t).s = t.s := rfl
@[simp] theorem State.setNZ_pc (v : Byte) (t : State) : (State.setNZ v t).pc = t.pc := rfl
@[simp] theorem State.setNZ_p (v : Byte) (t : State) : (State.setNZ v t).p = t.p.setNZ v := rfl
@[simp] theorem State.setNZ_ram (v : Byte) (t : State) : (State.setNZ v t).ram = t.ram := rfl
@[simp] theorem State.setNZ_nmiLine (v : Byte) (t : State) : (State.setNZ v t).nmiLine = t.nmiLine := rfl
@[simp] theorem State.setNZ_nmiRaised (v : Byte) (t : State) : (State.setNZ v t).nmiRaised = t.nmiRaised := rfl
@[simp] theorem State.setNZ_nmiPending (v : Byte) (t : State) : (State.setNZ v t).nmiPending = t.nmiPending := rfl
@[simp] theorem State.setNZ_irqRaised (v : Byte) (t : State) : (State.setNZ v t).irqRaised = t.irqRaised := rfl
@[simp] theorem State.setNZ_irqPending (v : Byte) (t : State) : (State.setNZ v t).irqPending = t.irqPending := rfl
@[simp] theorem State.setNZ_dmaDelay (v : Byte) (t : State) : (State.setNZ v t).dmaDelay = t.dmaDelay := rfl
@[simp] theorem State.setNZ_dmcRequest (v : Byte) (t : State) : (State.setNZ v t).dmcRequest = t.dmcRequest := rfl
@[simp] theorem State.setNZ_cycles (v : Byte) (t : State) : (State.setNZ v t).cycles = t.cycles := rfl
@[simp] theorem State.setNZ_runState (v : Byte) (t : State) : (State.setNZ v t).runState = t.runState := rfl
@[simp] theorem State.setNZ_noServiceNext (v : Byte) (t : State) : (State.setNZ v t).noServiceNext = t.noServiceNext := rfl
@[simp] theorem State.setNZ_strobe (v : Byte) (t : State) : (State.setNZ v t).strobe = t.strobe := rfl
@[simp] theorem State.setNZ_pad1 (v : Byte) (t : State) : (State.setNZ v t).pad1 = t.pad1 := rfl
@[simp] theorem State.setNZ_pad2 (v : Byte) (t : State) : (State.setNZ v t).pad2 = t.pad2 := rfl
@[simp] theorem State.setNZ_ppu (v : Byte) (t : State) : (State.setNZ v t).ppu = t.ppu := rfl
@[simp] theorem State.setNZ_apu (v : Byte) (t : State) : (State.setNZ v t).apu = t.apu := rfl
@[simp] theorem State.setNZ_cart (v : Byte) (t : State) : (State.setNZ v t).cart = t.cart := rfl
@[simp] theorem State.setNZ_params (v : Byte) (t : State) : (State.setNZ v t).params = t.params := rfl
@[simp] theorem State.setNZ_drawCount (v : Byte) (t : State) : (State.setNZ v t).drawCount = t.drawCount := rfl
@[simp] theorem State.setNZ_cpu (v : Byte) (t : State) : (State.setNZ v t).cpu = { t.cpu with p := t.p.setNZ v } := rfl
@[simp] theorem State.setNZ_byteAt (v : Byte) (t : State) (sp : Space) (n : Nat) :
    (State.setNZ v t).byteAt sp n = t.byteAt sp n := rfl

/-! ### `State.withCpu` -/

@[simp] theorem State.withCpu_a (c : Cpu) (t : State) : (State.withCpu c t).a = c.a := rfl
@[simp] theorem State.withCpu_x (c : Cpu) (t : State) : (State.withCpu c t).x = c.x := rfl
@[simp] theorem State.withCpu_y (c : Cpu) (t : State) : (State.withCpu c t).y = c.y := rfl
@[simp] theorem State.withCpu_s (c : Cpu) (t : State) : (State.withCpu c t).s = c.s := rfl
@[simp] theorem State.withCpu_pc (c : Cpu) (t : State) : (State.withCpu c t).pc = c.pc := rfl
@[simp] theorem State.withCpu_p (c : Cpu) (t : State) : (State.withCpu c t).p = c.p := rfl
@[simp] theorem State.withCpu_ram (c : Cpu) (t : State) : (State.withCpu c t).ram = t.ram := rfl
@[simp] theorem State.withCpu_nmiLine (c : Cpu) (t : State) : (State.withCpu c t).nmiLine = t.nmiLine := rfl
@[simp] theorem State.withCpu_nmiRaised (c : Cpu) (t : State) : (State.withCpu c t).nmiRaised = t.nmiRaised := rfl
@[simp] theorem State.withCpu_nmiPending (c : Cpu) (t : State) : (State.withCpu c t).nmiPending = t.nmiPending := rfl
@[simp] theorem State.withCpu_irqRaised (c : Cpu) (t : State) : (State.withCpu c t).irqRaised = t.irqRaised := rfl
@[simp] theorem State.withCpu_irqPending (c : Cpu) (t : State) : (State.withCpu c t).irqPending = t.irqPending := rfl
@[simp] theorem State.withCpu_dmaDelay (c : Cpu) (t : State) : (State.withCpu c t).dmaDelay = t.dmaDelay := rfl
@[simp] theorem State.withCpu_dmcRequest (c : Cpu) (t : State) : (State.withCpu c t).dmcRequest = t.dmcRequest := rfl
@[simp] theorem State.withCpu_cycles (c : Cpu) (t : State) : (State.withCpu c t).cycles = t.cycles := rfl
@[simp] theorem State.withCpu_runState (c : Cpu) (t : State) : (State.withCpu c t).runState = c.runState := rfl
@[simp] theorem State.withCpu_noServiceNext (c : Cpu) (t : State) : (State.withCpu c t).noServiceNext = c.noServiceNext := rfl
@[simp] theorem State.withCpu_strobe (c : Cpu) (t : State) : (State.withCpu c t).strobe = t.strobe := rfl
@[simp] theorem State.withCpu_pad1 (c : Cpu) (t : State) : (State.withCpu c t).pad1 = t.pad1 := rfl
@[simp] theorem State.withCpu_pad2 (c : Cpu) (t : State) : (State.withCpu c t).pad2 = t.pad2 := rfl
@[simp] theorem State.withCpu_ppu (c : Cpu) (t : State) : (State.withCpu c t).ppu = t.ppu := rfl
@[simp] theorem State.withCpu_apu (c : Cpu) (t : State) : (State.withCpu c t).apu = t.apu := rfl
@[simp] theorem State.withCpu_cart (c : Cpu) (t : State) : (State.withCpu c t).cart = t.cart := rfl
@[simp] theorem State.withCpu_params (c : Cpu) (t : State) : (State.withCpu c t).params = c.params := rfl
@[simp] theorem State.withCpu_drawCount (c : Cpu) (t : State) : (State.withCpu c t).drawCount = t.drawCount := rfl
@[simp] theorem State.withCpu_cpu (c : Cpu) (t : State) : (State.withCpu c t).cpu = c := rfl
@[simp] theorem State.withCpu_self (t : State) : State.withCpu t.cpu t = t := rfl
@[simp] theorem State.withCpu_withCpu (c d : Cpu) (t : State) : State.withCpu c (State.withCpu d t) = State.withCpu c t := rfl
@[simp] theorem State.withCpu_byteAt (c : Cpu) (t : State) (sp : Space) (n : Nat) :
    (State.withCpu c t).byteAt sp n = t.byteAt sp n := rfl

/-! ### The registers -/

theorem State.cpu_a (t : State) : t.cpu.a = t.a := rfl
theorem State.cpu_x (t : State) : t.cpu.x = t.x := rfl
theorem State.cpu_y (t : State) : t.cpu.y = t.y := rfl
theorem State.cpu_s (t : State) : t.cpu.s = t.s := rfl
theorem State.cpu_pc (t : State) : t.cpu.pc = t.pc := rfl
theorem State.cpu_p (t : State) : t.cpu.p = t.p := rfl
theorem State.cpu_runState (t : State) : t.cpu.runState = t.runState := rfl
theorem State.cpu_noServiceNext (t : State) : t.cpu.noServiceNext = t.noServiceNext := rfl
theorem State.cpu_params (t : State) : t.cpu.params = t.params := rfl

end Sys2Proof.Machine
end

