-- ==== Sys2Proof/Laws/Writes.lean ====
section
/-! SUPPORT. What a write bus cycle and OAM DMA change: only the cells that `writeCells` lists, and no register. -/

namespace Sys2Proof.Machine

theorem SameMem.but {s t : State} (h : SameMem s t) (cells : List (Space × Nat)) : SameMemBut cells s t :=
  fun sp n _ => h sp n

theorem SameMemBut.after {cells : List (Space × Nat)} {s t u : State} (h : SameMemBut cells s t) (k : SameMem t u) :
    SameMemBut cells s u :=
  fun sp n hn => (k sp n).trans (h sp n hn)

theorem SameMemBut.before {cells : List (Space × Nat)} {s t u : State} (h : SameMem s t) (k : SameMemBut cells t u) :
    SameMemBut cells s u :=
  fun sp n hn => (k sp n hn).trans (h sp n)

theorem SameMem.trans {s t u : State} (h : SameMem s t) (k : SameMem t u) : SameMem s u :=
  fun sp n => (k sp n).trans (h sp n)

/-! ### The devices -/

theorem ppuRegWrite_cpu (r : Nat) (v : Byte) (s : State) : (ppuRegWrite r v s).cpu = s.cpu := by
  unfold ppuRegWrite
  split <;> rfl

theorem deviceWrite_cpu (addr : Word) (v : Byte) (s : State) : (deviceWrite addr v s).cpu = s.cpu := by
  unfold deviceWrite writeStrobe
  repeat' split
  all_goals
    first
    | exact ppuRegWrite_cpu _ v s
    | simp only [State.cpu, writeApuEnables, bumpDraw]

/-- What a write to a picture-unit register leaves of the machine outside the picture unit and the cartridge's mapper
and pattern memory. -/
theorem ppuRegWrite_ram (r : Nat) (v : Byte) (s : State) : (ppuRegWrite r v s).ram = s.ram := by
  unfold ppuRegWrite
  split <;> rfl

theorem Ppu.writeOamData_oam (d : Byte) (p : Ppu) :
    (p.writeOamData d).oam =
      if p.renderingActive then p.oam else p.oam.write p.oamAddr.toNat (oamKeep p.oamAddr d) := by
  unfold Ppu.writeOamData
  split <;> rfl

/-- Two picture units with the same memories. -/
structure Ppu.SameMemory (p q : Ppu) : Prop where
  oam : q.oam = p.oam
  ntRam : q.ntRam = p.ntRam
  palette : q.palette = p.palette

theorem Ppu.sameMemory_incrementV (now : Nat) (p : Ppu) (c : Cart) :
    Ppu.SameMemory p (p.incrementV now c).1 ∧ Cart.Same c (p.incrementV now c).2 := by
  unfold Ppu.incrementV
  split
  · exact ⟨⟨rfl, rfl, rfl⟩, Cart.Same.refl c⟩
  · exact ⟨⟨rfl, rfl, rfl⟩, Cart.same_setPpuAddress now _ c⟩

theorem Ppu.sameMemory_writeCtrl (now : Nat) (d : Byte) (p : Ppu) : Ppu.SameMemory p (p.writeCtrl now d) := by
  unfold Ppu.writeCtrl; split <;> exact ⟨rfl, rfl, rfl⟩

theorem Ppu.sameMemory_writeMask (now : Nat) (d : Byte) (p : Ppu) : Ppu.SameMemory p (p.writeMask now d) := by
  unfold Ppu.writeMask; split <;> exact ⟨rfl, rfl, rfl⟩

theorem Ppu.sameMemory_writeScroll (now : Nat) (d : Byte) (p : Ppu) : Ppu.SameMemory p (p.writeScroll now d) := by
  unfold Ppu.writeScroll; repeat' split
  all_goals exact ⟨rfl, rfl, rfl⟩

theorem Ppu.sameMemory_writeAddr (now : Nat) (d : Byte) (p : Ppu) (c : Cart) :
    Ppu.SameMemory p (p.writeAddr now d c).1 ∧ Cart.Same c (p.writeAddr now d c).2 := by
  unfold Ppu.writeAddr
  repeat' split
  all_goals
    refine ⟨⟨rfl, rfl, rfl⟩, ?_⟩
    first
    | exact Cart.Same.refl c
    | exact Cart.same_setPpuAddress now _ c

theorem SameMem.of_ppu {s t : State} (ram : t.ram = s.ram) (p : Ppu.SameMemory s.ppu t.ppu)
    (c : Cart.Same s.cart t.cart) : SameMem s t := by
  intro sp n
  cases sp <;> simp only [State.byteAt, ram, p.oam, p.ntRam, p.palette, c.prgRam, c.prgRom, c.chr]

/-- A store through $2007 changes only the cell that the VRAM address selects. -/
theorem ppuData_mem (v : Byte) (s : State) : SameMemBut (vramCells s) s (ppuRegWrite 7 v s) := by
  intro sp n hn
  have hset : ∀ a c, Cart.Same c (c.setPpuAddress s.cycles a) := fun a c => Cart.same_setPpuAddress _ _ _
  simp only [ppuRegWrite, Ppu.writeData]
  unfold vramCells at hn
  dsimp only at hn
  split at hn
  · rename_i h1
    simp only [Ppu.busWrite, if_pos h1]
    have k := Ppu.sameMemory_incrementV s.cycles s.ppu
      ((s.cart.setPpuAddress s.cycles (s.ppu.v.setWidth 14)).chrWrite (BitVec.toNat (s.ppu.v.setWidth 14)) v)
    have hc := hset (s.ppu.v.setWidth 14) s.cart
    have hw : ∀ (d : Cart) (a : Nat), (d.chrWrite a v).prgRam = d.prgRam ∧ (d.chrWrite a v).prgRom = d.prgRom := by
      intro d a
      unfold Cart.chrWrite
      repeat' split
      all_goals exact ⟨rfl, rfl⟩
    cases sp with
    | ram => rfl
    | prgRam => simp only [State.byteAt, k.2.prgRam, (hw _ _).1, hc.prgRam]
    | prgRom => simp only [State.byteAt, k.2.prgRom, (hw _ _).2, hc.prgRom]
    | nametable => simp only [State.byteAt, k.1.ntRam]
    | oam => simp only [State.byteAt, k.1.oam]
    | palette => simp only [State.byteAt, k.1.palette]
    | chr =>
      simp only [State.byteAt, k.2.chr]
      unfold Cart.chrWrite
      simp only [Cart.chrIsRam, hc.chrBanks8, hc.chrIndex] at *
      split
      · rename_i hr
        simp only [hr, if_true] at hn
        split
        · rename_i i hi
          simp only [hi, Option.toList, List.map_cons, List.map_nil, List.mem_singleton, Prod.mk.injEq, true_and] at hn
          rw [Memory.read_write_other _ _ _ _ hn, hc.chr]
        · rw [hc.chr]
      · rw [hc.chr]
  · split at hn
    · rename_i h1 h2
      simp only [Ppu.busWrite, if_neg h1, if_pos h2]
      have k := Ppu.sameMemory_incrementV s.cycles
        { s.ppu with ntRam := s.ppu.ntRam.write (ntIndex s.cart.mirroring (s.ppu.v.setWidth 14)) v }
        (s.cart.setPpuAddress s.cycles (s.ppu.v.setWidth 14))
      have hc := (hset (s.ppu.v.setWidth 14) s.cart).trans k.2
      simp only [List.mem_singleton, Prod.mk.injEq] at hn
      cases sp with
      | ram => rfl
      | prgRam => simp only [State.byteAt, hc.prgRam]
      | prgRom => simp only [State.byteAt, hc.prgRom]
      | chr => simp only [State.byteAt, hc.chr]
      | nametable =>
        simp only [State.byteAt, k.1.ntRam]
        exact Memory.read_write_other _ _ _ _ (fun e => hn ⟨rfl, e⟩)
      | oam => simp only [State.byteAt, k.1.oam]
      | palette => simp only [State.byteAt, k.1.palette]
    · rename_i h1 h2
      simp only [Ppu.busWrite, if_neg h1, if_neg h2]
      have k := Ppu.sameMemory_incrementV s.cycles
        (s.ppu.paletteWrite (field (BitVec.setWidth 14 s.ppu.v) 0 5) (field v 0 6))
        (s.cart.setPpuAddress s.cycles (s.ppu.v.setWidth 14))
      have hc := (hset (s.ppu.v.setWidth 14) s.cart).trans k.2
      simp only [List.mem_singleton, Prod.mk.injEq] at hn
      cases sp with
      | ram => rfl
      | prgRam => simp only [State.byteAt, hc.prgRam]
      | prgRom => simp only [State.byteAt, hc.prgRom]
      | chr => simp only [State.byteAt, hc.chr]
      | nametable => simp only [State.byteAt, k.1.ntRam]; rfl
      | oam => simp only [State.byteAt, k.1.oam]; rfl
      | palette =>
        simp only [State.byteAt]
        rw [k.1.palette]
        simp only [Ppu.paletteWrite]
        congr 2
        exact Vector.getElem?_set_ne _ (fun e => hn ⟨rfl, e.symm⟩)

theorem ppuRegWrite_mem (r : Nat) (v : Byte) (s : State) :
    SameMemBut (if r = 4 then (if s.ppu.renderingActive then [] else [(.oam, s.ppu.oamAddr.toNat)])
      else if r = 7 then vramCells s else []) s (ppuRegWrite r v s) := by
  intro sp n hn
  match r with
  | 0 => exact SameMem.of_ppu (s := s) (t := ppuRegWrite 0 v s) rfl (Ppu.sameMemory_writeCtrl _ v _) (Cart.Same.refl _) sp n
  | 1 => exact SameMem.of_ppu (s := s) (t := ppuRegWrite 1 v s) rfl (Ppu.sameMemory_writeMask _ v _) (Cart.Same.refl _) sp n
  | 2 => rfl
  | 3 => cases sp <;> rfl
  | 4 =>
    cases sp with
    | oam =>
      simp only [ppuRegWrite, State.byteAt, Ppu.writeOamData_oam]
      split
      · rfl
      · rename_i hr
        simp only [hr, if_true] at hn
        exact Memory.read_write_other _ _ _ _ (fun e => hn (by simp [e]))
    | ram => rfl
    | prgRam => rfl
    | prgRom => rfl
    | chr => rfl
    | nametable =>
      simp only [ppuRegWrite, State.byteAt, Ppu.writeOamData]
      split <;> rfl
    | palette =>
      simp only [ppuRegWrite, State.byteAt, Ppu.writeOamData]
      split <;> rfl
  | 5 => exact SameMem.of_ppu (s := s) (t := ppuRegWrite 5 v s) rfl (Ppu.sameMemory_writeScroll _ v _) (Cart.Same.refl _) sp n
  | 6 =>
    have h := Ppu.sameMemory_writeAddr s.cycles v s.ppu s.cart
    exact SameMem.of_ppu (s := s) (t := ppuRegWrite 6 v s) rfl h.1 h.2 sp n
  | 7 => exact ppuData_mem v s sp n (by simpa using hn)
  | _ + 8 => rfl

theorem Cart.writeRegister_memories (now : Nat) (a : Word) (v : Byte) (c : Cart) :
    (c.writeRegister now a v).prgRom = c.prgRom ∧ (c.writeRegister now a v).prgRam = c.prgRam ∧
      (c.writeRegister now a v).chr = c.chr := by
  unfold Cart.writeRegister
  split <;> exact ⟨rfl, rfl, rfl⟩

/-- A write that reaches a device in state `s` stores only to the cells of `storeCells`. -/
theorem deviceWrite_mem (addr : Word) (v : Byte) (s : State) :
    SameMemBut (storeCells addr s) s (deviceWrite addr v s) := by
  intro sp n hn
  unfold deviceWrite
  unfold storeCells at hn
  split
  · rename_i h
    simp only [if_pos h, List.mem_singleton, Prod.mk.injEq] at hn
    cases sp with
    | ram => exact Memory.read_write_other _ _ _ _ (fun e => hn ⟨rfl, e⟩)
    | prgRam => rfl
    | prgRom => rfl
    | chr => rfl
    | nametable => rfl
    | oam => rfl
    | palette => rfl
  · rename_i h
    rw [if_neg h] at hn
    split
    · rename_i h2
      rw [if_pos h2] at hn
      exact ppuRegWrite_mem (addr.toNat % 8) v s sp n hn
    · rename_i h2
      rw [if_neg h2] at hn
      split
      · cases sp <;> simp only [State.byteAt]
      · split
        · cases sp <;> simp only [State.byteAt, writeApuEnables]
        · split
          · unfold writeStrobe
            split <;> cases sp <;> rfl
          · split
            · cases sp <;> simp only [State.byteAt]
            · split
              · rfl
              · rename_i h3 h4 h5 h6 h7
                simp only [Cart.cpuWrite]
                rw [if_neg (by omega)] at hn
                split
                · rfl
                · rename_i h8
                  rw [if_neg h8] at hn
                  split
                  · rename_i h9
                    simp only [if_pos h9, List.mem_singleton, Prod.mk.injEq] at hn
                    cases sp with
                    | prgRam => exact Memory.read_write_other _ _ _ _ (fun e => hn ⟨rfl, e⟩)
                    | ram => rfl
                    | prgRom => rfl
                    | chr => rfl
                    | nametable => rfl
                    | oam => rfl
                    | palette => rfl
                  · have k := Cart.writeRegister_memories s.cycles addr v s.cart
                    cases sp with
                    | prgRam => simp only [State.byteAt, k.2.1]
                    | prgRom => simp only [State.byteAt, k.1]
                    | chr => simp only [State.byteAt, k.2.2]
                    | ram => rfl
                    | nametable => rfl
                    | oam => rfl
                    | palette => rfl

/-! ### One write bus cycle -/

/-- A write bus cycle: the device is reached in `atWrite s`, then the rest of the dots pass. -/
theorem writeCycle_eq (addr : Word) (v : Byte) (s : State) :
    writeCycle addr v s =
      pollInterrupts (tickPpus (3 - s.params.writeSplit.val) (deviceWrite addr v (atWrite s))) := rfl

theorem kept_atWrite (s : State) : Kept s (atWrite s) :=
  (kept_cycleStart s).trans ((kept_countDown _).trans ((kept_captureInterrupts _).trans (kept_tickPpus _ _)))

/-- After the device access, the rest of a write cycle leaves memories and registers alone. -/
theorem kept_writeCycle (addr : Word) (v : Byte) (s : State) :
    Kept (deviceWrite addr v (atWrite s)) (writeCycle addr v s) :=
  (kept_tickPpus _ _).trans (kept_pollInterrupts _)

theorem writeCycle_cpu (addr : Word) (v : Byte) (s : State) : (writeCycle addr v s).cpu = s.cpu := by
  rw [(kept_writeCycle addr v s).cpu, deviceWrite_cpu, (kept_atWrite s).cpu]

theorem writeCycle_mem (addr : Word) (v : Byte) (s : State) :
    SameMemBut (writeCells addr s) s (writeCycle addr v s) :=
  SameMemBut.before (kept_atWrite s).byteAt
    ((deviceWrite_mem addr v (atWrite s)).after (kept_writeCycle addr v s).byteAt)

/-! ### OAM DMA -/

/-- What OAM DMA leaves alone: all but the 256 bytes of primary OAM. -/
structure KeptButOam (s t : State) : Prop where
  cpu : t.cpu = s.cpu
  mem : ∀ sp n, sp ≠ .oam ∨ 256 ≤ n → t.byteAt sp n = s.byteAt sp n

theorem KeptButOam.refl (s : State) : KeptButOam s s := ⟨rfl, fun _ _ _ => rfl⟩

theorem KeptButOam.trans {s t u : State} (h : KeptButOam s t) (k : KeptButOam t u) : KeptButOam s u :=
  ⟨k.cpu.trans h.cpu, fun sp n hn => (k.mem sp n hn).trans (h.mem sp n hn)⟩

theorem Kept.butOam {s t : State} (h : Kept s t) : KeptButOam s t := ⟨h.cpu, fun sp n _ => h.byteAt sp n⟩

theorem keptButOam_put (v : Byte) (s : State) : KeptButOam s (writeCycle 0x2004 v s) := by
  refine ⟨writeCycle_cpu _ v s, fun sp n hn => writeCycle_mem _ v s sp n ?_⟩
  simp only [writeCells, storeCells]
  rw [if_neg (by decide), if_pos (by decide), if_pos (by decide)]
  split
  · simp
  · have := (atWrite s).ppu.oamAddr.isLt
    simp only [List.mem_singleton, Prod.mk.injEq, not_and]
    intro h e
    rcases hn with hn | hn
    · exact hn h
    · omega

theorem kept_oamServiceDmc (src : Word) (s : State) : Kept s (oamServiceDmc src s) := by
  unfold oamServiceDmc
  split
  · exact (kept_oamRead src s).trans ((kept_oamRead _ _).trans (kept_dmcFetched _))
  · exact Kept.refl s

theorem keptButOam_transfer (src : Word) (s : State) : KeptButOam s (oamTransfer src s) :=
  ((kept_oamServiceDmc src s).trans (kept_oamRead src _)).butOam.trans (keptButOam_put _ _)

theorem keptButOam_copy (page : Byte) (k i : Nat) (s : State) : KeptButOam s (oamCopy page k i s) := by
  induction k generalizing i s with
  | zero => exact KeptButOam.refl s
  | succ k ih => exact (keptButOam_transfer _ s).trans (ih (i + 1) _)

/-- OAM DMA changes no register and stores only to primary OAM. -/
theorem keptButOam_oamDma (page : Byte) (s : State) : KeptButOam s (oamDma page s) := by
  unfold oamDma
  dsimp only
  split
  · exact ((kept_oamRead _ s).trans (kept_oamRead _ _)).butOam.trans (keptButOam_copy page 256 0 _)
  · exact (kept_oamRead _ s).butOam.trans (keptButOam_copy page 256 0 _)

/-! ### `Write(addr, v)` -/

/-- A write changes no CPU register. -/
theorem busWrite_cpu (addr : Word) (v : Byte) (s : State) : (busWrite addr v s).cpu = s.cpu := by
  unfold busWrite
  dsimp only
  split
  · exact (keptButOam_oamDma v _).cpu.trans (writeCycle_cpu addr v s)
  · exact writeCycle_cpu addr v s

theorem busWrite_of_ne (addr : Word) (v : Byte) (s : State) (h : addr.toNat ≠ 0x4014) :
    busWrite addr v s = writeCycle addr v s := by
  simp only [busWrite, if_neg h]

/-- A write stores only to the cells that `writeCells` lists. -/
theorem busWrite_mem (addr : Word) (v : Byte) (s : State) : SameMemBut (writeCells addr s) s (busWrite addr v s) := by
  by_cases h : addr.toNat = 0x4014
  · intro sp n hn
    have hs : (sp, n) ∉ (List.range 256).map fun i => (Space.oam, i) := by
      simpa only [writeCells, storeCells, h, if_true, show ¬ (0x4014 < 0x2000) by decide,
        show ¬ (0x4014 < 0x4000) by decide, if_false] using hn
    have hn' : sp ≠ .oam ∨ 256 ≤ n := by
      by_cases hsp : sp = .oam
      · refine .inr (Nat.le_of_not_lt fun hlt => hs ?_)
        simp [hsp, hlt]
      · exact .inl hsp
    have hb : busWrite addr v s = oamDma v (writeCycle addr v s) := by simp only [busWrite, if_pos h]
    rw [hb, (keptButOam_oamDma v _).mem sp n hn']
    exact writeCycle_mem addr v s sp n hn
  · rw [busWrite_of_ne addr v s h]
    exact writeCycle_mem addr v s

/-- A store to internal RAM reads back, in a canonical RAM. -/
theorem busWrite_ram (addr : Word) (v : Byte) (s : State) (h : addr.toNat < 0x2000) :
    (busWrite addr v s).ram = s.ram.write (addr.toNat % 0x800) v := by
  rw [busWrite_of_ne addr v s (by omega), (kept_writeCycle addr v s).ram, deviceWrite, if_pos h]
  simp only [(kept_atWrite s).ram]

end Sys2Proof.Machine
end

