-- ==== Sys2Proof/Laws/Ops.lean ====
section
/-! SUPPORT. What each shared operation of fetching, addressing and the stack can do, said once. -/

namespace Sys2Proof.Machine

/-! ### Addresses as numbers -/

theorem zext16_toNat (b : Byte) : (zext16 b).toNat = b.toNat := by
  simp only [zext16, BitVec.toNat_setWidth]
  exact Nat.mod_eq_of_lt (by have := b.isLt; omega)

theorem mk16_toNat (hi lo : Byte) : (mk16 hi lo).toNat = 256 * hi.toNat + lo.toNat := by
  have h := lo.isLt
  simp only [mk16, BitVec.toNat_append, Nat.shiftLeft_eq]
  rw [Nat.mul_comm, ← Nat.two_pow_add_eq_or_of_lt h]

theorem stackAddr_toNat (s : State) : (stackAddr s).toNat = 256 + s.s.toNat := by
  rw [stackAddr, mk16_toNat]
  rfl

theorem mk16_hi8_lo8 (w : Word) : mk16 (hi8 w) (lo8 w) = w := by
  apply BitVec.eq_of_toNat_eq
  rw [mk16_toNat]
  simp only [hi8, lo8, BitVec.extractLsb'_toNat, Nat.shiftRight_eq_div_pow]
  have := w.isLt
  omega

/-! ### Fetching -/

theorem kept_fetchOperand (s : State) : Kept (s.setPc (s.pc + 1)) (fetchOperand s).2 := by
  have k := kept_busRead s.pc s
  have hp : (busRead s.pc s).2.pc = s.pc := k.pc
  simp only [fetchOperand, hp]
  exact ⟨by rw [State.setPc_cpu, State.setPc_cpu, k.cpu], k.ram, k.oam, k.ntRam, k.palette, k.cart⟩

theorem fetchOperand_cpu (s : State) : (fetchOperand s).2.cpu = { s.cpu with pc := s.pc + 1 } :=
  (kept_fetchOperand s).cpu

theorem fetchOperand_mem (s : State) : SameMem s (fetchOperand s).2 := (kept_fetchOperand s).byteAt

/-! ### Zero page -/

/-- A read in page zero returns the byte of internal RAM. -/
theorem busRead_zp (b : Byte) (s : State) : (busRead (zext16 b) s).1 = s.ram.read b.toNat := by
  have := b.isLt
  rw [busRead_ram _ s (by rw [zext16_toNat]; omega), zext16_toNat, Nat.mod_eq_of_lt (by omega)]

/-! ### Effective addresses -/

theorem kept_eaZp (b : Byte) (s : State) : Kept s (eaZp b s).2 := Kept.refl s
theorem kept_eaZpx (b : Byte) (s : State) : Kept s (eaZpx b s).2 := kept_dummyRead _ s
theorem kept_eaZpy (b : Byte) (s : State) : Kept s (eaZpy b s).2 := kept_dummyRead _ s
theorem kept_eaAbs (lo hi : Byte) (s : State) : Kept s (eaAbs lo hi s).2 := Kept.refl s

theorem kept_eaIndexed (cls : AccessClass) (lo hi i : Byte) (s : State) : Kept s (eaIndexed cls lo hi i s).2 := by
  simp only [eaIndexed]
  split
  · exact kept_dummyRead _ s
  · exact Kept.refl s

theorem kept_eaAbx (cls : AccessClass) (lo hi : Byte) (s : State) : Kept s (eaAbx cls lo hi s).2 :=
  kept_eaIndexed cls lo hi s.x s

theorem kept_eaAby (cls : AccessClass) (lo hi : Byte) (s : State) : Kept s (eaAby cls lo hi s).2 :=
  kept_eaIndexed cls lo hi s.y s

theorem kept_pointerIzx (b : Byte) (s : State) : Kept s (pointerIzx b s).2 :=
  (kept_dummyRead _ s).trans ((kept_busRead _ _).trans (kept_busRead _ _))

theorem kept_eaIzx (b : Byte) (s : State) : Kept s (eaIzx b s).2 := kept_pointerIzx b s

theorem kept_pointerIzy (b : Byte) (s : State) : Kept s (pointerIzy b s).2 :=
  (kept_busRead _ s).trans (kept_busRead _ _)

theorem kept_eaIzy (cls : AccessClass) (b : Byte) (s : State) : Kept s (eaIzy cls b s).2 :=
  (kept_pointerIzy b s).trans (kept_eaIndexed cls _ _ _ _)

theorem kept_targetInd (lo hi : Byte) (s : State) : Kept s (targetInd lo hi s).2 :=
  (kept_busRead _ s).trans (kept_busRead _ _)

theorem eaZpx_fst (b : Byte) (s : State) : (eaZpx b s).1 = zext16 (b + s.x) := by
  simp only [eaZpx, (kept_dummyRead (zext16 b) s).x]

theorem eaZpy_fst (b : Byte) (s : State) : (eaZpy b s).1 = zext16 (b + s.y) := by
  simp only [eaZpy, (kept_dummyRead (zext16 b) s).y]

/-- The pointer of `(zp,X)`: two bytes of page zero. -/
theorem pointerIzx_fst (b : Byte) (s : State) :
    (pointerIzx b s).1 = (s.ram.read (b + s.x).toNat, s.ram.read (b + s.x + 1).toNat) := by
  have k1 := kept_dummyRead (zext16 b) s
  have k2 := k1.trans (kept_busRead (zext16 (b + s.x)) (dummyRead (zext16 b) s))
  simp only [pointerIzx, k1.x, busRead_zp, k1.ram, k2.ram]

/-- The pointer of `(zp),Y`: two bytes of page zero. -/
theorem pointerIzy_fst (b : Byte) (s : State) :
    (pointerIzy b s).1 = (s.ram.read b.toNat, s.ram.read (b + 1).toNat) := by
  simp only [pointerIzy, busRead_zp, (kept_busRead (zext16 b) s).ram]

theorem eaIzx_fst (b : Byte) (s : State) :
    (eaIzx b s).1 = mk16 (s.ram.read (b + s.x + 1).toNat) (s.ram.read (b + s.x).toNat) := by
  simp only [eaIzx, pointerIzx_fst]

theorem eaIzy_fst (cls : AccessClass) (b : Byte) (s : State) :
    (eaIzy cls b s).1 = mk16 (s.ram.read (b + 1).toNat) (s.ram.read b.toNat) + zext16 s.y := by
  simp only [eaIzy, eaIndexed, pointerIzy_fst, (kept_pointerIzy b s).y]

/-! ### The stack -/

theorem writeCells_ram (addr : Word) (s : State) (h : addr.toNat < 0x2000) :
    writeCells addr s = [(.ram, addr.toNat % 0x800)] := by
  simp only [writeCells, storeCells, if_pos h]

theorem push_cpu (v : Byte) (s : State) : (push v s).cpu = { s.cpu with s := s.s - 1 } := by
  have h := busWrite_cpu (stackAddr s) v s
  simp only [push, State.setS_cpu, h]
  rw [show (busWrite (stackAddr s) v s).s = s.s from congrArg Cpu.s h]

theorem push_ram (v : Byte) (s : State) : (push v s).ram = s.ram.write (256 + s.s.toNat) v := by
  have := s.s.isLt
  simp only [push, State.setS_ram]
  rw [busWrite_ram _ v s (by rw [stackAddr_toNat]; omega), stackAddr_toNat, Nat.mod_eq_of_lt (by omega)]

/-- A push stores to one byte of the stack page. -/
theorem push_mem (v : Byte) (s : State) : SameMemBut [(.ram, 256 + s.s.toNat)] s (push v s) := by
  have := s.s.isLt
  have h := busWrite_mem (stackAddr s) v s
  rw [writeCells_ram _ s (by rw [stackAddr_toNat]; omega), stackAddr_toNat, Nat.mod_eq_of_lt (by omega)] at h
  exact h

theorem kept_pull (s : State) : Kept (s.setS (s.s + 1)) (pull s).2 := kept_busRead _ _

/-- A pull returns the byte above the stack pointer, wrapping in the stack page. -/
theorem pull_fst (s : State) : (pull s).1 = s.ram.read (256 + (s.s + 1).toNat) := by
  have := (s.s + 1).isLt
  have e : (stackAddr (s.setS (s.s + 1))).toNat = 256 + (s.s + 1).toNat := stackAddr_toNat _
  simp only [pull]
  rw [busRead_ram _ _ (by rw [e]; omega), e, Nat.mod_eq_of_lt (by omega)]
  rfl

theorem pull_cpu (s : State) : (pull s).2.cpu = { s.cpu with s := s.s + 1 } := (kept_pull s).cpu

theorem pull_mem (s : State) : SameMem s (pull s).2 := (kept_pull s).byteAt

theorem kept_dummyStackRead (s : State) : Kept s (dummyStackRead s) := kept_dummyRead _ s

/-! ### Vectors -/

/-- A pending NMI is used up by the vector it takes; otherwise nothing changes. -/
theorem selectVector_eq (v : Word) (s : State) :
    selectVector v s = (if s.nmiPending then 0xFFFA#16 else v, { s with nmiPending := false }) := by
  unfold selectVector
  cases h : s.nmiPending
  · simp only [Bool.false_eq_true, if_false]
    rw [← h]
  · rfl

/-! ### A next state -/

/-- What an outcome that is a next state is. -/
theorem next_inj {s t : State} (h : (Host.Outcome.next s : Result) = .next t) : s = t := by
  injection h

end Sys2Proof.Machine
end

