-- ==== Sys2Proof/Laws/Classes.lean ====
section
/-! SUPPORT. Each access class completes: what `exec` answers when an arm is one of the five shapes, said once. The
operation of an arm enters as an equation between states that have the registers of `s`. -/

namespace Sys2Proof.Machine

/-- A state with the registers of another is itself with them. -/
theorem State.withCpu_eq {t : State} {c : Cpu} (h : t.cpu = c) : t.withCpu c = t := by rw [← h]; rfl

theorem impliedGives {op : Byte} {i : Instr} {s : State} {post : Cpu} (f : State → State) (hop : i.opcode = op)
    (he : exec i s = implied f s) (hf : ∀ u : State, f (u.withCpu s.cpu) = u.withCpu post) :
    ImpliedGives op i s post := by
  have k := kept_dummyRead s.pc s
  have h := hf (dummyRead s.pc s)
  rw [State.withCpu_eq k.cpu] at h
  exact ⟨hop, he.trans (congrArg _ h), k.byteAt⟩

theorem immediateGives {op : Byte} {i : Instr} {s : State} {post : Cpu} (f : Byte → State → State) (b : Byte)
    (hop : i.opcode = op) (he : exec i s = immediate f b s) (hf : f b s = s.withCpu post) :
    ImmediateGives op i s post :=
  ⟨hop, he.trans (congrArg _ hf)⟩

theorem readGives {op : Byte} {i : Instr} {s : State} {post : Byte → Cpu} (ea : State → Word × State)
    (f : Byte → State → State) (hop : i.opcode = op) (he : exec i s = readClass ea f s) (hk : Kept s (ea s).2)
    (hf : ∀ v (u : State), f v (u.withCpu s.cpu) = u.withCpu (post v)) :
    ReadGives op i (ea s) s post := by
  have k := hk.trans (kept_busRead (ea s).1 (ea s).2)
  have h := hf (busRead (ea s).1 (ea s).2).1 (busRead (ea s).1 (ea s).2).2
  rw [State.withCpu_eq k.cpu] at h
  exact ⟨hop, he.trans (congrArg _ h), k.byteAt⟩

theorem writeGives {op : Byte} {i : Instr} {s : State} {v : Byte} (ea : State → Word × State)
    (value : State → Byte) (hop : i.opcode = op) (he : exec i s = writeClass ea value s) (hk : Kept s (ea s).2)
    (hv : value (ea s).2 = v) : WriteGives op i (ea s) s v s.cpu := by
  subst hv
  have hc : (busWrite (ea s).1 (value (ea s).2) (ea s).2).cpu = s.cpu := (busWrite_cpu _ _ _).trans hk.cpu
  have ht : (busWrite (ea s).1 (value (ea s).2) (ea s).2).withCpu s.cpu =
      busWrite (ea s).1 (value (ea s).2) (ea s).2 := by rw [← hc]; rfl
  refine ⟨hop, he.trans (congrArg _ ht.symm), ?_⟩
  rw [ht]
  exact SameMemBut.before hk.byteAt (busWrite_mem _ _ _)

theorem SameMemBut.mono {cells cells' : List (Space × Nat)} {s t : State} (h : SameMemBut cells s t)
    (hs : ∀ c ∈ cells, c ∈ cells') : SameMemBut cells' s t :=
  fun sp n hn => h sp n fun hm => hn (hs _ hm)

theorem SameMemBut.trans {cells cells' : List (Space × Nat)} {s t u : State} (h : SameMemBut cells s t)
    (k : SameMemBut cells' t u) : SameMemBut (cells ++ cells') s u :=
  fun sp n hn => (k sp n fun hm => hn (List.mem_append_right _ hm)).trans
    (h sp n fun hm => hn (List.mem_append_left _ hm))

theorem modifyGives {op : Byte} {i : Instr} {s : State} {result : Byte → Byte} {flags : Byte → Flags}
    {post : Byte → Cpu} (ea : State → Word × State) (f : Byte → State → Byte × State) (after : Byte → State → State)
    (hop : i.opcode = op) (he : exec i s = rmwClass ea f after s) (hk : Kept s (ea s).2)
    (hf : ∀ v (u : State), f v (u.withCpu s.cpu) = (result v, u.withCpu { s.cpu with p := flags v }))
    (ha : ∀ v (u : State), after (result v) (u.withCpu { s.cpu with p := flags v }) = u.withCpu (post v)) :
    ModifyGives op i (ea s) s result flags post := by
  have k := hk.trans (kept_busRead (ea s).1 (ea s).2)
  generalize hr : busRead (ea s).1 (ea s).2 = r at k
  have hc : (busWrite (ea s).1 r.1 r.2).cpu = s.cpu := (busWrite_cpu _ _ _).trans k.cpu
  have hm := hf r.1 (busWrite (ea s).1 r.1 r.2)
  rw [State.withCpu_eq hc] at hm
  generalize hw : (busWrite (ea s).1 r.1 r.2).withCpu { s.cpu with p := flags r.1 } = w at hm
  have hwc : (busWrite (ea s).1 (result r.1) w).cpu = { s.cpu with p := flags r.1 } := by
    rw [busWrite_cpu, ← hw, State.withCpu_cpu]
  have ht := ha r.1 (busWrite (ea s).1 (result r.1) w)
  rw [State.withCpu_eq hwc] at ht
  refine ⟨hop, ?_, ?_⟩
  · rw [he]
    simp only [rmwClass, hr, hm, hw, ht]
  · simp only [hr, hw]
    have h1 := SameMemBut.before k.byteAt (busWrite_mem (ea s).1 r.1 r.2)
    have h2 : SameMemBut (writeCells (ea s).1 r.2) s w := fun sp n hn => by rw [← hw]; exact h1 sp n hn
    exact SameMemBut.trans h2 (busWrite_mem _ _ _)

end Sys2Proof.Machine
end

