-- ==== Sys2Proof/Laws/Closed.lean ====
section
/-! SUPPORT. What every instruction and every step keeps: whatever bus cycles keep and register changes keep. A property
is shown of the bus cycles once (`Closed`), and holds after every instruction (`exec_closed`) and every step
(`step_closed`). -/

namespace Sys2Proof.Machine

/-- A property of states that every bus cycle, every change of registers and the taking of an NMI keep. -/
structure Closed (P : State → Prop) : Prop where
  read : ∀ suppress addr s, P s → P (busReadWith suppress addr s).2
  write : ∀ addr v s, P s → P (busWrite addr v s)
  regs : ∀ c s, c.params = s.params → P s → P (s.withCpu c)
  nmi : ∀ s, P s → P { s with nmiPending := false }

/-- The state `t` comes from `s` by bus cycles and register changes. -/
def Reaches (s t : State) : Prop := ∀ P, Closed P → P s → P t

theorem Reaches.refl (s : State) : Reaches s s := fun _ _ h => h

theorem Reaches.trans {s t u : State} (h : Reaches s t) (k : Reaches t u) : Reaches s u :=
  fun P hP hs => k P hP (h P hP hs)

theorem reaches_read (suppress : Bool) (addr : Word) (s : State) : Reaches s (busReadWith suppress addr s).2 :=
  fun _ hP h => hP.read suppress addr s h

theorem reaches_busRead (addr : Word) (s : State) : Reaches s (busRead addr s).2 := reaches_read false addr s

theorem reaches_dummyRead (addr : Word) (s : State) : Reaches s (dummyRead addr s) := reaches_read false addr s

theorem reaches_write (addr : Word) (v : Byte) (s : State) : Reaches s (busWrite addr v s) :=
  fun _ hP h => hP.write addr v s h

/-- The change from `s` to `t` is one of registers only. -/
def OnlyRegs (s t : State) : Prop := t = s.withCpu t.cpu ∧ t.params = s.params

theorem OnlyRegs.reaches {s t : State} (h : OnlyRegs s t) : Reaches s t := fun P hP hs => by
  rw [h.1]
  exact hP.regs _ _ h.2 hs

theorem reaches_setPc (v : Word) (s : State) : Reaches s (s.setPc v) := OnlyRegs.reaches ⟨rfl, rfl⟩
theorem reaches_setS (v : Byte) (s : State) : Reaches s (s.setS v) := OnlyRegs.reaches ⟨rfl, rfl⟩
theorem reaches_setP (v : Flags) (s : State) : Reaches s (s.setP v) := OnlyRegs.reaches ⟨rfl, rfl⟩

/-! ### Fetching, addressing, the stack, interrupts -/

theorem reaches_fetchOperand (s : State) : Reaches s (fetchOperand s).2 :=
  (reaches_busRead s.pc s).trans (reaches_setPc _ _)

theorem reaches_eaIndexed (cls : AccessClass) (lo hi i : Byte) (s : State) : Reaches s (eaIndexed cls lo hi i s).2 := by
  simp only [eaIndexed]
  split
  · exact reaches_dummyRead _ s
  · exact Reaches.refl s

theorem reaches_pointerIzx (b : Byte) (s : State) : Reaches s (pointerIzx b s).2 :=
  (reaches_dummyRead _ s).trans ((reaches_busRead _ _).trans (reaches_busRead _ _))

theorem reaches_pointerIzy (b : Byte) (s : State) : Reaches s (pointerIzy b s).2 :=
  (reaches_busRead _ s).trans (reaches_busRead _ _)

theorem reaches_eaZp (b : Byte) (s : State) : Reaches s (eaZp b s).2 := Reaches.refl s
theorem reaches_eaZpx (b : Byte) (s : State) : Reaches s (eaZpx b s).2 := reaches_dummyRead _ s
theorem reaches_eaZpy (b : Byte) (s : State) : Reaches s (eaZpy b s).2 := reaches_dummyRead _ s
theorem reaches_eaAbs (lo hi : Byte) (s : State) : Reaches s (eaAbs lo hi s).2 := Reaches.refl s

theorem reaches_eaAbx (cls : AccessClass) (lo hi : Byte) (s : State) : Reaches s (eaAbx cls lo hi s).2 :=
  reaches_eaIndexed cls lo hi s.x s

theorem reaches_eaAby (cls : AccessClass) (lo hi : Byte) (s : State) : Reaches s (eaAby cls lo hi s).2 :=
  reaches_eaIndexed cls lo hi s.y s

theorem reaches_eaIzx (b : Byte) (s : State) : Reaches s (eaIzx b s).2 := reaches_pointerIzx b s

theorem reaches_eaIzy (cls : AccessClass) (b : Byte) (s : State) : Reaches s (eaIzy cls b s).2 :=
  (reaches_pointerIzy b s).trans (reaches_eaIndexed cls _ _ _ _)

theorem reaches_push (v : Byte) (s : State) : Reaches s (push v s) :=
  (reaches_write _ v s).trans (reaches_setS _ _)

theorem reaches_pull (s : State) : Reaches s (pull s).2 := (reaches_setS _ s).trans (reaches_busRead _ _)

theorem reaches_dummyStackRead (s : State) : Reaches s (dummyStackRead s) := reaches_dummyRead _ s

theorem reaches_selectVector (v : Word) (s : State) : Reaches s (selectVector v s).2 := by
  rw [selectVector_eq]
  exact fun P hP h => hP.nmi s h

theorem reaches_enterHandler (b : Bool) (s : State) : Reaches s (enterHandler b s) :=
  (reaches_push _ s).trans ((reaches_push _ _).trans ((reaches_push _ _).trans ((reaches_selectVector _ _).trans
    ((reaches_setP _ _).trans ((reaches_busRead _ _).trans ((reaches_busRead _ _).trans (reaches_setPc _ _)))))))

theorem reaches_interruptSequence (s : State) : Reaches s (interruptSequence s) :=
  (reaches_dummyRead _ s).trans ((reaches_dummyRead _ _).trans (reaches_enterHandler false _))

theorem reaches_serviceInterrupts (s : State) : Reaches s (serviceInterrupts s) := by
  unfold serviceInterrupts
  split
  · exact OnlyRegs.reaches ⟨rfl, rfl⟩
  · split
    · exact reaches_interruptSequence s
    · exact Reaches.refl s

theorem reaches_returnFromInterrupt (s : State) : Reaches s (returnFromInterrupt s) :=
  (reaches_pull s).trans ((reaches_setP _ _).trans ((reaches_pull _).trans ((reaches_pull _).trans (reaches_setPc _ _))))

/-! ### The access classes -/

/-- The outcome is a next state that comes from `s` by bus cycles and register changes. -/
def Runs (s : State) (r : Result) : Prop := ∃ t, r = .next t ∧ Reaches s t

theorem runs_implied {f : State → State} {s : State} (hf : ∀ u, OnlyRegs u (f u)) : Runs s (implied f s) :=
  ⟨_, rfl, (reaches_dummyRead _ s).trans (hf _).reaches⟩

theorem runs_immediate {f : Byte → State → State} {b : Byte} {s : State} (hf : ∀ v u, OnlyRegs u (f v u)) :
    Runs s (immediate f b s) :=
  ⟨_, rfl, (hf b s).reaches⟩

theorem runs_read {ea : State → Word × State} {f : Byte → State → State} {s : State} (he : Reaches s (ea s).2)
    (hf : ∀ v u, OnlyRegs u (f v u)) : Runs s (readClass ea f s) :=
  ⟨_, rfl, he.trans ((reaches_busRead _ _).trans (hf _ _).reaches)⟩

theorem runs_write {ea : State → Word × State} {value : State → Byte} {s : State} (he : Reaches s (ea s).2) :
    Runs s (writeClass ea value s) :=
  ⟨_, rfl, he.trans (reaches_write _ _ _)⟩

theorem runs_rmw {ea : State → Word × State} {f : Byte → State → Byte × State} {after : Byte → State → State} {s : State}
    (he : Reaches s (ea s).2) (hf : ∀ v u, OnlyRegs u (f v u).2) (ha : ∀ v u, OnlyRegs u (after v u)) :
    Runs s (rmwClass ea f after s) :=
  ⟨_, rfl, he.trans ((reaches_busRead _ _).trans ((reaches_write _ _ _).trans ((hf _ _).reaches.trans
    ((reaches_write _ _ _).trans (ha _ _).reaches))))⟩

theorem runs_storeHigh {lo hi i : Byte} {prep : State → State} {reg : State → Byte} {s : State}
    (hp : ∀ u, OnlyRegs u (prep u)) : Runs s (storeHigh lo hi i prep reg s) :=
  ⟨_, rfl, (reaches_dummyRead _ s).trans ((hp _).reaches.trans (reaches_write _ _ _))⟩

theorem runs_unstable {op : Byte} {run : State → Result} {s : State} (h : Runs s (run s)) :
    Runs s (unstable op run s) := by
  unfold unstable
  split
  · exact ⟨_, rfl, OnlyRegs.reaches ⟨rfl, rfl⟩⟩
  · exact h

theorem runs_storeHighIzy {b : Byte} {prep : State → State} {reg : State → Byte} {s : State}
    (hp : ∀ u, OnlyRegs u (prep u)) : Runs s (storeHighIzy b prep reg s) := by
  obtain ⟨t, ht, hr⟩ := runs_storeHigh (lo := (pointerIzy b s).1.1) (hi := (pointerIzy b s).1.2)
    (i := (pointerIzy b s).2.y) (reg := reg) (s := (pointerIzy b s).2) hp
  exact ⟨t, ht, (reaches_pointerIzy b s).trans hr⟩

theorem runs_branch {c : Bool} {off : Byte} {s : State} : Runs s (branch c off s) := by
  refine ⟨_, rfl, ?_⟩
  split
  · unfold takeBranch
    split
    · exact (reaches_read true _ s).trans (reaches_setPc _ _)
    · exact (reaches_dummyRead _ s).trans ((reaches_dummyRead _ _).trans (reaches_setPc _ _))
  · exact Reaches.refl s

theorem runs_of {s t : State} (h : Reaches s t) : Runs s (.next t) := ⟨t, rfl, h⟩

theorem reaches_opLda (v : Byte) (s : State) : Reaches s (opLda v s) := OnlyRegs.reaches ⟨rfl, rfl⟩

theorem reaches_runPha (s : State) : Reaches s (runPha s) := (reaches_dummyRead _ s).trans (reaches_push _ _)

theorem reaches_runPhp (s : State) : Reaches s (runPhp s) := (reaches_dummyRead _ s).trans (reaches_push _ _)

theorem reaches_runPla (s : State) : Reaches s (runPla s) :=
  (reaches_dummyRead _ s).trans ((reaches_dummyStackRead _).trans ((reaches_pull _).trans (reaches_opLda _ _)))

theorem reaches_runPlp (s : State) : Reaches s (runPlp s) :=
  (reaches_dummyRead _ s).trans ((reaches_dummyStackRead _).trans ((reaches_pull _).trans (reaches_setP _ _)))

theorem reaches_runJmpInd (lo hi : Byte) (s : State) : Reaches s (runJmpInd lo hi s) :=
  (reaches_busRead _ s).trans ((reaches_busRead _ _).trans (reaches_setPc _ _))

theorem reaches_runJsr (lo : Byte) (s : State) : Reaches s (runJsr lo s) :=
  (reaches_dummyStackRead s).trans ((reaches_push _ _).trans ((reaches_push _ _).trans
    ((reaches_busRead _ _).trans (reaches_setPc _ _))))

theorem reaches_runRts (s : State) : Reaches s (runRts s) :=
  (reaches_dummyRead _ s).trans ((reaches_dummyStackRead _).trans ((reaches_pull _).trans ((reaches_pull _).trans
    ((reaches_dummyRead _ _).trans (reaches_setPc _ _)))))

theorem reaches_holdService (s : State) : Reaches s { s with noServiceNext := true } := OnlyRegs.reaches ⟨rfl, rfl⟩

theorem reaches_runBrk (s : State) : Reaches s (runBrk s) :=
  (reaches_fetchOperand s).trans ((reaches_enterHandler true _).trans (reaches_holdService _))

theorem reaches_runRti (s : State) : Reaches s (runRti s) :=
  (reaches_dummyRead _ s).trans ((reaches_dummyStackRead _).trans (reaches_returnFromInterrupt _))

theorem reaches_raiseFatal (op : Byte) (s : State) : Reaches s (raiseFatal op s) := OnlyRegs.reaches ⟨rfl, rfl⟩

end Sys2Proof.Machine
end

