-- ==== Sys2Proof/Laws/Exec.lean ====
section
/-! SUPPORT. Every instruction completes: `exec` answers a next state, which comes from the state before by bus cycles
and register changes. Every property that these keep holds after every instruction and every step. -/

namespace Sys2Proof.Machine

/-- Every instruction completes, in every state. -/
theorem exec_runs : (i : Instr) → (s : State) → Runs s (exec i s)
  | .brk, s => runs_of (reaches_runBrk s)
  | .oraIzx b, s => runs_read (reaches_eaIzx b s) (fun _ _ => ⟨rfl, rfl⟩)
  | .jam02, s => runs_of (reaches_raiseFatal _ s)
  | .sloIzx b, s => runs_rmw (reaches_eaIzx b s) (fun _ _ => ⟨rfl, rfl⟩) (fun _ _ => ⟨rfl, rfl⟩)
  | .nopZp04 b, s => runs_read (reaches_eaZp b s) (fun _ _ => ⟨rfl, rfl⟩)
  | .oraZp b, s => runs_read (reaches_eaZp b s) (fun _ _ => ⟨rfl, rfl⟩)
  | .aslZp b, s => runs_rmw (reaches_eaZp b s) (fun _ _ => ⟨rfl, rfl⟩) (fun _ _ => ⟨rfl, rfl⟩)
  | .sloZp b, s => runs_rmw (reaches_eaZp b s) (fun _ _ => ⟨rfl, rfl⟩) (fun _ _ => ⟨rfl, rfl⟩)
  | .php, s => runs_of (reaches_runPhp s)
  | .oraImm _, _ => runs_immediate (fun _ _ => ⟨rfl, rfl⟩)
  | .aslAcc, _ => runs_implied (fun _ => ⟨rfl, rfl⟩)
  | .ancImm0B _, _ => runs_immediate (fun _ _ => ⟨rfl, rfl⟩)
  | .nopAbs lo hi, s => runs_read (reaches_eaAbs lo hi s) (fun _ _ => ⟨rfl, rfl⟩)
  | .oraAbs lo hi, s => runs_read (reaches_eaAbs lo hi s) (fun _ _ => ⟨rfl, rfl⟩)
  | .aslAbs lo hi, s => runs_rmw (reaches_eaAbs lo hi s) (fun _ _ => ⟨rfl, rfl⟩) (fun _ _ => ⟨rfl, rfl⟩)
  | .sloAbs lo hi, s => runs_rmw (reaches_eaAbs lo hi s) (fun _ _ => ⟨rfl, rfl⟩) (fun _ _ => ⟨rfl, rfl⟩)
  | .bpl _, _ => runs_branch
  | .oraIzy b, s => runs_read (reaches_eaIzy .read b s) (fun _ _ => ⟨rfl, rfl⟩)
  | .jam12, s => runs_of (reaches_raiseFatal _ s)
  | .sloIzy b, s => runs_rmw (reaches_eaIzy .rmw b s) (fun _ _ => ⟨rfl, rfl⟩) (fun _ _ => ⟨rfl, rfl⟩)
  | .nopZpx14 b, s => runs_read (reaches_eaZpx b s) (fun _ _ => ⟨rfl, rfl⟩)
  | .oraZpx b, s => runs_read (reaches_eaZpx b s) (fun _ _ => ⟨rfl, rfl⟩)
  | .aslZpx b, s => runs_rmw (reaches_eaZpx b s) (fun _ _ => ⟨rfl, rfl⟩) (fun _ _ => ⟨rfl, rfl⟩)
  | .sloZpx b, s => runs_rmw (reaches_eaZpx b s) (fun _ _ => ⟨rfl, rfl⟩) (fun _ _ => ⟨rfl, rfl⟩)
  | .clc, _ => runs_implied (fun _ => ⟨rfl, rfl⟩)
  | .oraAby lo hi, s => runs_read (reaches_eaAby .read lo hi s) (fun _ _ => ⟨rfl, rfl⟩)
  | .nopImp1A, _ => runs_implied (fun _ => ⟨rfl, rfl⟩)
  | .sloAby lo hi, s => runs_rmw (reaches_eaAby .rmw lo hi s) (fun _ _ => ⟨rfl, rfl⟩) (fun _ _ => ⟨rfl, rfl⟩)
  | .nopAbx1C lo hi, s => runs_read (reaches_eaAbx .read lo hi s) (fun _ _ => ⟨rfl, rfl⟩)
  | .oraAbx lo hi, s => runs_read (reaches_eaAbx .read lo hi s) (fun _ _ => ⟨rfl, rfl⟩)
  | .aslAbx lo hi, s => runs_rmw (reaches_eaAbx .rmw lo hi s) (fun _ _ => ⟨rfl, rfl⟩) (fun _ _ => ⟨rfl, rfl⟩)
  | .sloAbx lo hi, s => runs_rmw (reaches_eaAbx .rmw lo hi s) (fun _ _ => ⟨rfl, rfl⟩) (fun _ _ => ⟨rfl, rfl⟩)
  | .jsr target, s => runs_of (reaches_runJsr (lo8 target) s)
  | .andIzx b, s => runs_read (reaches_eaIzx b s) (fun _ _ => ⟨rfl, rfl⟩)
  | .jam22, s => runs_of (reaches_raiseFatal _ s)
  | .rlaIzx b, s => runs_rmw (reaches_eaIzx b s) (fun _ _ => ⟨rfl, rfl⟩) (fun _ _ => ⟨rfl, rfl⟩)
  | .bitZp b, s => runs_read (reaches_eaZp b s) (fun _ _ => ⟨rfl, rfl⟩)
  | .andZp b, s => runs_read (reaches_eaZp b s) (fun _ _ => ⟨rfl, rfl⟩)
  | .rolZp b, s => runs_rmw (reaches_eaZp b s) (fun _ _ => ⟨rfl, rfl⟩) (fun _ _ => ⟨rfl, rfl⟩)
  | .rlaZp b, s => runs_rmw (reaches_eaZp b s) (fun _ _ => ⟨rfl, rfl⟩) (fun _ _ => ⟨rfl, rfl⟩)
  | .plp, s => runs_of (reaches_runPlp s)
  | .andImm _, _ => runs_immediate (fun _ _ => ⟨rfl, rfl⟩)
  | .rolAcc, _ => runs_implied (fun _ => ⟨rfl, rfl⟩)
  | .ancImm2B _, _ => runs_immediate (fun _ _ => ⟨rfl, rfl⟩)
  | .bitAbs lo hi, s => runs_read (reaches_eaAbs lo hi s) (fun _ _ => ⟨rfl, rfl⟩)
  | .andAbs lo hi, s => runs_read (reaches_eaAbs lo hi s) (fun _ _ => ⟨rfl, rfl⟩)
  | .rolAbs lo hi, s => runs_rmw (reaches_eaAbs lo hi s) (fun _ _ => ⟨rfl, rfl⟩) (fun _ _ => ⟨rfl, rfl⟩)
  | .rlaAbs lo hi, s => runs_rmw (reaches_eaAbs lo hi s) (fun _ _ => ⟨rfl, rfl⟩) (fun _ _ => ⟨rfl, rfl⟩)
  | .bmi _, _ => runs_branch
  | .andIzy b, s => runs_read (reaches_eaIzy .read b s) (fun _ _ => ⟨rfl, rfl⟩)
  | .jam32, s => runs_of (reaches_raiseFatal _ s)
  | .rlaIzy b, s => runs_rmw (reaches_eaIzy .rmw b s) (fun _ _ => ⟨rfl, rfl⟩) (fun _ _ => ⟨rfl, rfl⟩)
  | .nopZpx34 b, s => runs_read (reaches_eaZpx b s) (fun _ _ => ⟨rfl, rfl⟩)
  | .andZpx b, s => runs_read (reaches_eaZpx b s) (fun _ _ => ⟨rfl, rfl⟩)
  | .rolZpx b, s => runs_rmw (reaches_eaZpx b s) (fun _ _ => ⟨rfl, rfl⟩) (fun _ _ => ⟨rfl, rfl⟩)
  | .rlaZpx b, s => runs_rmw (reaches_eaZpx b s) (fun _ _ => ⟨rfl, rfl⟩) (fun _ _ => ⟨rfl, rfl⟩)
  | .sec, _ => runs_implied (fun _ => ⟨rfl, rfl⟩)
  | .andAby lo hi, s => runs_read (reaches_eaAby .read lo hi s) (fun _ _ => ⟨rfl, rfl⟩)
  | .nopImp3A, _ => runs_implied (fun _ => ⟨rfl, rfl⟩)
  | .rlaAby lo hi, s => runs_rmw (reaches_eaAby .rmw lo hi s) (fun _ _ => ⟨rfl, rfl⟩) (fun _ _ => ⟨rfl, rfl⟩)
  | .nopAbx3C lo hi, s => runs_read (reaches_eaAbx .read lo hi s) (fun _ _ => ⟨rfl, rfl⟩)
  | .andAbx lo hi, s => runs_read (reaches_eaAbx .read lo hi s) (fun _ _ => ⟨rfl, rfl⟩)
  | .rolAbx lo hi, s => runs_rmw (reaches_eaAbx .rmw lo hi s) (fun _ _ => ⟨rfl, rfl⟩) (fun _ _ => ⟨rfl, rfl⟩)
  | .rlaAbx lo hi, s => runs_rmw (reaches_eaAbx .rmw lo hi s) (fun _ _ => ⟨rfl, rfl⟩) (fun _ _ => ⟨rfl, rfl⟩)
  | .rti, s => runs_of (reaches_runRti s)
  | .eorIzx b, s => runs_read (reaches_eaIzx b s) (fun _ _ => ⟨rfl, rfl⟩)
  | .jam42, s => runs_of (reaches_raiseFatal _ s)
  | .sreIzx b, s => runs_rmw (reaches_eaIzx b s) (fun _ _ => ⟨rfl, rfl⟩) (fun _ _ => ⟨rfl, rfl⟩)
  | .nopZp44 b, s => runs_read (reaches_eaZp b s) (fun _ _ => ⟨rfl, rfl⟩)
  | .eorZp b, s => runs_read (reaches_eaZp b s) (fun _ _ => ⟨rfl, rfl⟩)
  | .lsrZp b, s => runs_rmw (reaches_eaZp b s) (fun _ _ => ⟨rfl, rfl⟩) (fun _ _ => ⟨rfl, rfl⟩)
  | .sreZp b, s => runs_rmw (reaches_eaZp b s) (fun _ _ => ⟨rfl, rfl⟩) (fun _ _ => ⟨rfl, rfl⟩)
  | .pha, s => runs_of (reaches_runPha s)
  | .eorImm _, _ => runs_immediate (fun _ _ => ⟨rfl, rfl⟩)
  | .lsrAcc, _ => runs_implied (fun _ => ⟨rfl, rfl⟩)
  | .alr _, _ => runs_immediate (fun _ _ => ⟨rfl, rfl⟩)
  | .jmpAbs _ _, s => runs_of (reaches_setPc _ s)
  | .eorAbs lo hi, s => runs_read (reaches_eaAbs lo hi s) (fun _ _ => ⟨rfl, rfl⟩)
  | .lsrAbs lo hi, s => runs_rmw (reaches_eaAbs lo hi s) (fun _ _ => ⟨rfl, rfl⟩) (fun _ _ => ⟨rfl, rfl⟩)
  | .sreAbs lo hi, s => runs_rmw (reaches_eaAbs lo hi s) (fun _ _ => ⟨rfl, rfl⟩) (fun _ _ => ⟨rfl, rfl⟩)
  | .bvc _, _ => runs_branch
  | .eorIzy b, s => runs_read (reaches_eaIzy .read b s) (fun _ _ => ⟨rfl, rfl⟩)
  | .jam52, s => runs_of (reaches_raiseFatal _ s)
  | .sreIzy b, s => runs_rmw (reaches_eaIzy .rmw b s) (fun _ _ => ⟨rfl, rfl⟩) (fun _ _ => ⟨rfl, rfl⟩)
  | .nopZpx54 b, s => runs_read (reaches_eaZpx b s) (fun _ _ => ⟨rfl, rfl⟩)
  | .eorZpx b, s => runs_read (reaches_eaZpx b s) (fun _ _ => ⟨rfl, rfl⟩)
  | .lsrZpx b, s => runs_rmw (reaches_eaZpx b s) (fun _ _ => ⟨rfl, rfl⟩) (fun _ _ => ⟨rfl, rfl⟩)
  | .sreZpx b, s => runs_rmw (reaches_eaZpx b s) (fun _ _ => ⟨rfl, rfl⟩) (fun _ _ => ⟨rfl, rfl⟩)
  | .cli, _ => runs_implied (fun _ => ⟨rfl, rfl⟩)
  | .eorAby lo hi, s => runs_read (reaches_eaAby .read lo hi s) (fun _ _ => ⟨rfl, rfl⟩)
  | .nopImp5A, _ => runs_implied (fun _ => ⟨rfl, rfl⟩)
  | .sreAby lo hi, s => runs_rmw (reaches_eaAby .rmw lo hi s) (fun _ _ => ⟨rfl, rfl⟩) (fun _ _ => ⟨rfl, rfl⟩)
  | .nopAbx5C lo hi, s => runs_read (reaches_eaAbx .read lo hi s) (fun _ _ => ⟨rfl, rfl⟩)
  | .eorAbx lo hi, s => runs_read (reaches_eaAbx .read lo hi s) (fun _ _ => ⟨rfl, rfl⟩)
  | .lsrAbx lo hi, s => runs_rmw (reaches_eaAbx .rmw lo hi s) (fun _ _ => ⟨rfl, rfl⟩) (fun _ _ => ⟨rfl, rfl⟩)
  | .sreAbx lo hi, s => runs_rmw (reaches_eaAbx .rmw lo hi s) (fun _ _ => ⟨rfl, rfl⟩) (fun _ _ => ⟨rfl, rfl⟩)
  | .rts, s => runs_of (reaches_runRts s)
  | .adcIzx b, s => runs_read (reaches_eaIzx b s) (fun _ _ => ⟨rfl, rfl⟩)
  | .jam62, s => runs_of (reaches_raiseFatal _ s)
  | .rraIzx b, s => runs_rmw (reaches_eaIzx b s) (fun _ _ => ⟨rfl, rfl⟩) (fun _ _ => ⟨rfl, rfl⟩)
  | .nopZp64 b, s => runs_read (reaches_eaZp b s) (fun _ _ => ⟨rfl, rfl⟩)
  | .adcZp b, s => runs_read (reaches_eaZp b s) (fun _ _ => ⟨rfl, rfl⟩)
  | .rorZp b, s => runs_rmw (reaches_eaZp b s) (fun _ _ => ⟨rfl, rfl⟩) (fun _ _ => ⟨rfl, rfl⟩)
  | .rraZp b, s => runs_rmw (reaches_eaZp b s) (fun _ _ => ⟨rfl, rfl⟩) (fun _ _ => ⟨rfl, rfl⟩)
  | .pla, s => runs_of (reaches_runPla s)
  | .adcImm _, _ => runs_immediate (fun _ _ => ⟨rfl, rfl⟩)
  | .rorAcc, _ => runs_implied (fun _ => ⟨rfl, rfl⟩)
  | .arr _, _ => runs_immediate (fun _ _ => ⟨rfl, rfl⟩)
  | .jmpInd lo hi, s => runs_of (reaches_runJmpInd lo hi s)
  | .adcAbs lo hi, s => runs_read (reaches_eaAbs lo hi s) (fun _ _ => ⟨rfl, rfl⟩)
  | .rorAbs lo hi, s => runs_rmw (reaches_eaAbs lo hi s) (fun _ _ => ⟨rfl, rfl⟩) (fun _ _ => ⟨rfl, rfl⟩)
  | .rraAbs lo hi, s => runs_rmw (reaches_eaAbs lo hi s) (fun _ _ => ⟨rfl, rfl⟩) (fun _ _ => ⟨rfl, rfl⟩)
  | .bvs _, _ => runs_branch
  | .adcIzy b, s => runs_read (reaches_eaIzy .read b s) (fun _ _ => ⟨rfl, rfl⟩)
  | .jam72, s => runs_of (reaches_raiseFatal _ s)
  | .rraIzy b, s => runs_rmw (reaches_eaIzy .rmw b s) (fun _ _ => ⟨rfl, rfl⟩) (fun _ _ => ⟨rfl, rfl⟩)
  | .nopZpx74 b, s => runs_read (reaches_eaZpx b s) (fun _ _ => ⟨rfl, rfl⟩)
  | .adcZpx b, s => runs_read (reaches_eaZpx b s) (fun _ _ => ⟨rfl, rfl⟩)
  | .rorZpx b, s => runs_rmw (reaches_eaZpx b s) (fun _ _ => ⟨rfl, rfl⟩) (fun _ _ => ⟨rfl, rfl⟩)
  | .rraZpx b, s => runs_rmw (reaches_eaZpx b s) (fun _ _ => ⟨rfl, rfl⟩) (fun _ _ => ⟨rfl, rfl⟩)
  | .sei, _ => runs_implied (fun _ => ⟨rfl, rfl⟩)
  | .adcAby lo hi, s => runs_read (reaches_eaAby .read lo hi s) (fun _ _ => ⟨rfl, rfl⟩)
  | .nopImp7A, _ => runs_implied (fun _ => ⟨rfl, rfl⟩)
  | .rraAby lo hi, s => runs_rmw (reaches_eaAby .rmw lo hi s) (fun _ _ => ⟨rfl, rfl⟩) (fun _ _ => ⟨rfl, rfl⟩)
  | .nopAbx7C lo hi, s => runs_read (reaches_eaAbx .read lo hi s) (fun _ _ => ⟨rfl, rfl⟩)
  | .adcAbx lo hi, s => runs_read (reaches_eaAbx .read lo hi s) (fun _ _ => ⟨rfl, rfl⟩)
  | .rorAbx lo hi, s => runs_rmw (reaches_eaAbx .rmw lo hi s) (fun _ _ => ⟨rfl, rfl⟩) (fun _ _ => ⟨rfl, rfl⟩)
  | .rraAbx lo hi, s => runs_rmw (reaches_eaAbx .rmw lo hi s) (fun _ _ => ⟨rfl, rfl⟩) (fun _ _ => ⟨rfl, rfl⟩)
  | .nopImm80 _, _ => runs_immediate (fun _ _ => ⟨rfl, rfl⟩)
  | .staIzx b, s => runs_write (reaches_eaIzx b s)
  | .nopImm82 _, _ => runs_immediate (fun _ _ => ⟨rfl, rfl⟩)
  | .saxIzx b, s => runs_write (reaches_eaIzx b s)
  | .styZp b, s => runs_write (reaches_eaZp b s)
  | .staZp b, s => runs_write (reaches_eaZp b s)
  | .stxZp b, s => runs_write (reaches_eaZp b s)
  | .saxZp b, s => runs_write (reaches_eaZp b s)
  | .dey, _ => runs_implied (fun _ => ⟨rfl, rfl⟩)
  | .nopImm89 _, _ => runs_immediate (fun _ _ => ⟨rfl, rfl⟩)
  | .txa, _ => runs_implied (fun _ => ⟨rfl, rfl⟩)
  | .ane _, _ => runs_unstable (runs_immediate (fun _ _ => ⟨rfl, rfl⟩))
  | .styAbs lo hi, s => runs_write (reaches_eaAbs lo hi s)
  | .staAbs lo hi, s => runs_write (reaches_eaAbs lo hi s)
  | .stxAbs lo hi, s => runs_write (reaches_eaAbs lo hi s)
  | .saxAbs lo hi, s => runs_write (reaches_eaAbs lo hi s)
  | .bcc _, _ => runs_branch
  | .staIzy b, s => runs_write (reaches_eaIzy .write b s)
  | .jam92, s => runs_of (reaches_raiseFatal _ s)
  | .shaIzy _, _ => runs_unstable (runs_storeHighIzy (fun _ => ⟨rfl, rfl⟩))
  | .styZpx b, s => runs_write (reaches_eaZpx b s)
  | .staZpx b, s => runs_write (reaches_eaZpx b s)
  | .stxZpy b, s => runs_write (reaches_eaZpy b s)
  | .saxZpy b, s => runs_write (reaches_eaZpy b s)
  | .tya, _ => runs_implied (fun _ => ⟨rfl, rfl⟩)
  | .staAby lo hi, s => runs_write (reaches_eaAby .write lo hi s)
  | .txs, _ => runs_implied (fun _ => ⟨rfl, rfl⟩)
  | .tas _ _, _ => runs_unstable (runs_storeHigh (fun _ => ⟨rfl, rfl⟩))
  | .shy _ _, _ => runs_unstable (runs_storeHigh (fun _ => ⟨rfl, rfl⟩))
  | .staAbx lo hi, s => runs_write (reaches_eaAbx .write lo hi s)
  | .shx _ _, _ => runs_unstable (runs_storeHigh (fun _ => ⟨rfl, rfl⟩))
  | .shaAby _ _, _ => runs_unstable (runs_storeHigh (fun _ => ⟨rfl, rfl⟩))
  | .ldyImm _, _ => runs_immediate (fun _ _ => ⟨rfl, rfl⟩)
  | .ldaIzx b, s => runs_read (reaches_eaIzx b s) (fun _ _ => ⟨rfl, rfl⟩)
  | .ldxImm _, _ => runs_immediate (fun _ _ => ⟨rfl, rfl⟩)
  | .laxIzx b, s => runs_read (reaches_eaIzx b s) (fun _ _ => ⟨rfl, rfl⟩)
  | .ldyZp b, s => runs_read (reaches_eaZp b s) (fun _ _ => ⟨rfl, rfl⟩)
  | .ldaZp b, s => runs_read (reaches_eaZp b s) (fun _ _ => ⟨rfl, rfl⟩)
  | .ldxZp b, s => runs_read (reaches_eaZp b s) (fun _ _ => ⟨rfl, rfl⟩)
  | .laxZp b, s => runs_read (reaches_eaZp b s) (fun _ _ => ⟨rfl, rfl⟩)
  | .tay, _ => runs_implied (fun _ => ⟨rfl, rfl⟩)
  | .ldaImm _, _ => runs_immediate (fun _ _ => ⟨rfl, rfl⟩)
  | .tax, _ => runs_implied (fun _ => ⟨rfl, rfl⟩)
  | .lxa _, _ => runs_unstable (runs_immediate (fun _ _ => ⟨rfl, rfl⟩))
  | .ldyAbs lo hi, s => runs_read (reaches_eaAbs lo hi s) (fun _ _ => ⟨rfl, rfl⟩)
  | .ldaAbs lo hi, s => runs_read (reaches_eaAbs lo hi s) (fun _ _ => ⟨rfl, rfl⟩)
  | .ldxAbs lo hi, s => runs_read (reaches_eaAbs lo hi s) (fun _ _ => ⟨rfl, rfl⟩)
  | .laxAbs lo hi, s => runs_read (reaches_eaAbs lo hi s) (fun _ _ => ⟨rfl, rfl⟩)
  | .bcs _, _ => runs_branch
  | .ldaIzy b, s => runs_read (reaches_eaIzy .read b s) (fun _ _ => ⟨rfl, rfl⟩)
  | .jamB2, s => runs_of (reaches_raiseFatal _ s)
  | .laxIzy b, s => runs_read (reaches_eaIzy .read b s) (fun _ _ => ⟨rfl, rfl⟩)
  | .ldyZpx b, s => runs_read (reaches_eaZpx b s) (fun _ _ => ⟨rfl, rfl⟩)
  | .ldaZpx b, s => runs_read (reaches_eaZpx b s) (fun _ _ => ⟨rfl, rfl⟩)
  | .ldxZpy b, s => runs_read (reaches_eaZpy b s) (fun _ _ => ⟨rfl, rfl⟩)
  | .laxZpy b, s => runs_read (reaches_eaZpy b s) (fun _ _ => ⟨rfl, rfl⟩)
  | .clv, _ => runs_implied (fun _ => ⟨rfl, rfl⟩)
  | .ldaAby lo hi, s => runs_read (reaches_eaAby .read lo hi s) (fun _ _ => ⟨rfl, rfl⟩)
  | .tsx, _ => runs_implied (fun _ => ⟨rfl, rfl⟩)
  | .las lo hi, s => runs_read (reaches_eaAby .read lo hi s) (fun _ _ => ⟨rfl, rfl⟩)
  | .ldyAbx lo hi, s => runs_read (reaches_eaAbx .read lo hi s) (fun _ _ => ⟨rfl, rfl⟩)
  | .ldaAbx lo hi, s => runs_read (reaches_eaAbx .read lo hi s) (fun _ _ => ⟨rfl, rfl⟩)
  | .ldxAby lo hi, s => runs_read (reaches_eaAby .read lo hi s) (fun _ _ => ⟨rfl, rfl⟩)
  | .laxAby lo hi, s => runs_read (reaches_eaAby .read lo hi s) (fun _ _ => ⟨rfl, rfl⟩)
  | .cpyImm _, _ => runs_immediate (fun _ _ => ⟨rfl, rfl⟩)
  | .cmpIzx b, s => runs_read (reaches_eaIzx b s) (fun _ _ => ⟨rfl, rfl⟩)
  | .nopImmC2 _, _ => runs_immediate (fun _ _ => ⟨rfl, rfl⟩)
  | .dcpIzx b, s => runs_rmw (reaches_eaIzx b s) (fun _ _ => ⟨rfl, rfl⟩) (fun _ _ => ⟨rfl, rfl⟩)
  | .cpyZp b, s => runs_read (reaches_eaZp b s) (fun _ _ => ⟨rfl, rfl⟩)
  | .cmpZp b, s => runs_read (reaches_eaZp b s) (fun _ _ => ⟨rfl, rfl⟩)
  | .decZp b, s => runs_rmw (reaches_eaZp b s) (fun _ _ => ⟨rfl, rfl⟩) (fun _ _ => ⟨rfl, rfl⟩)
  | .dcpZp b, s => runs_rmw (reaches_eaZp b s) (fun _ _ => ⟨rfl, rfl⟩) (fun _ _ => ⟨rfl, rfl⟩)
  | .iny, _ => runs_implied (fun _ => ⟨rfl, rfl⟩)
  | .cmpImm _, _ => runs_immediate (fun _ _ => ⟨rfl, rfl⟩)
  | .dex, _ => runs_implied (fun _ => ⟨rfl, rfl⟩)
  | .axs _, _ => runs_immediate (fun _ _ => ⟨rfl, rfl⟩)
  | .cpyAbs lo hi, s => runs_read (reaches_eaAbs lo hi s) (fun _ _ => ⟨rfl, rfl⟩)
  | .cmpAbs lo hi, s => runs_read (reaches_eaAbs lo hi s) (fun _ _ => ⟨rfl, rfl⟩)
  | .decAbs lo hi, s => runs_rmw (reaches_eaAbs lo hi s) (fun _ _ => ⟨rfl, rfl⟩) (fun _ _ => ⟨rfl, rfl⟩)
  | .dcpAbs lo hi, s => runs_rmw (reaches_eaAbs lo hi s) (fun _ _ => ⟨rfl, rfl⟩) (fun _ _ => ⟨rfl, rfl⟩)
  | .bne _, _ => runs_branch
  | .cmpIzy b, s => runs_read (reaches_eaIzy .read b s) (fun _ _ => ⟨rfl, rfl⟩)
  | .jamD2, s => runs_of (reaches_raiseFatal _ s)
  | .dcpIzy b, s => runs_rmw (reaches_eaIzy .rmw b s) (fun _ _ => ⟨rfl, rfl⟩) (fun _ _ => ⟨rfl, rfl⟩)
  | .nopZpxD4 b, s => runs_read (reaches_eaZpx b s) (fun _ _ => ⟨rfl, rfl⟩)
  | .cmpZpx b, s => runs_read (reaches_eaZpx b s) (fun _ _ => ⟨rfl, rfl⟩)
  | .decZpx b, s => runs_rmw (reaches_eaZpx b s) (fun _ _ => ⟨rfl, rfl⟩) (fun _ _ => ⟨rfl, rfl⟩)
  | .dcpZpx b, s => runs_rmw (reaches_eaZpx b s) (fun _ _ => ⟨rfl, rfl⟩) (fun _ _ => ⟨rfl, rfl⟩)
  | .cld, _ => runs_implied (fun _ => ⟨rfl, rfl⟩)
  | .cmpAby lo hi, s => runs_read (reaches_eaAby .read lo hi s) (fun _ _ => ⟨rfl, rfl⟩)
  | .nopImpDA, _ => runs_implied (fun _ => ⟨rfl, rfl⟩)
  | .dcpAby lo hi, s => runs_rmw (reaches_eaAby .rmw lo hi s) (fun _ _ => ⟨rfl, rfl⟩) (fun _ _ => ⟨rfl, rfl⟩)
  | .nopAbxDC lo hi, s => runs_read (reaches_eaAbx .read lo hi s) (fun _ _ => ⟨rfl, rfl⟩)
  | .cmpAbx lo hi, s => runs_read (reaches_eaAbx .read lo hi s) (fun _ _ => ⟨rfl, rfl⟩)
  | .decAbx lo hi, s => runs_rmw (reaches_eaAbx .rmw lo hi s) (fun _ _ => ⟨rfl, rfl⟩) (fun _ _ => ⟨rfl, rfl⟩)
  | .dcpAbx lo hi, s => runs_rmw (reaches_eaAbx .rmw lo hi s) (fun _ _ => ⟨rfl, rfl⟩) (fun _ _ => ⟨rfl, rfl⟩)
  | .cpxImm _, _ => runs_immediate (fun _ _ => ⟨rfl, rfl⟩)
  | .sbcIzx b, s => runs_read (reaches_eaIzx b s) (fun _ _ => ⟨rfl, rfl⟩)
  | .nopImmE2 _, _ => runs_immediate (fun _ _ => ⟨rfl, rfl⟩)
  | .isbIzx b, s => runs_rmw (reaches_eaIzx b s) (fun _ _ => ⟨rfl, rfl⟩) (fun _ _ => ⟨rfl, rfl⟩)
  | .cpxZp b, s => runs_read (reaches_eaZp b s) (fun _ _ => ⟨rfl, rfl⟩)
  | .sbcZp b, s => runs_read (reaches_eaZp b s) (fun _ _ => ⟨rfl, rfl⟩)
  | .incZp b, s => runs_rmw (reaches_eaZp b s) (fun _ _ => ⟨rfl, rfl⟩) (fun _ _ => ⟨rfl, rfl⟩)
  | .isbZp b, s => runs_rmw (reaches_eaZp b s) (fun _ _ => ⟨rfl, rfl⟩) (fun _ _ => ⟨rfl, rfl⟩)
  | .inx, _ => runs_implied (fun _ => ⟨rfl, rfl⟩)
  | .sbcImm _, _ => runs_immediate (fun _ _ => ⟨rfl, rfl⟩)
  | .nop, _ => runs_implied (fun _ => ⟨rfl, rfl⟩)
  | .sbcImmEB _, _ => runs_immediate (fun _ _ => ⟨rfl, rfl⟩)
  | .cpxAbs lo hi, s => runs_read (reaches_eaAbs lo hi s) (fun _ _ => ⟨rfl, rfl⟩)
  | .sbcAbs lo hi, s => runs_read (reaches_eaAbs lo hi s) (fun _ _ => ⟨rfl, rfl⟩)
  | .incAbs lo hi, s => runs_rmw (reaches_eaAbs lo hi s) (fun _ _ => ⟨rfl, rfl⟩) (fun _ _ => ⟨rfl, rfl⟩)
  | .isbAbs lo hi, s => runs_rmw (reaches_eaAbs lo hi s) (fun _ _ => ⟨rfl, rfl⟩) (fun _ _ => ⟨rfl, rfl⟩)
  | .beq _, _ => runs_branch
  | .sbcIzy b, s => runs_read (reaches_eaIzy .read b s) (fun _ _ => ⟨rfl, rfl⟩)
  | .jamF2, s => runs_of (reaches_raiseFatal _ s)
  | .isbIzy b, s => runs_rmw (reaches_eaIzy .rmw b s) (fun _ _ => ⟨rfl, rfl⟩) (fun _ _ => ⟨rfl, rfl⟩)
  | .nopZpxF4 b, s => runs_read (reaches_eaZpx b s) (fun _ _ => ⟨rfl, rfl⟩)
  | .sbcZpx b, s => runs_read (reaches_eaZpx b s) (fun _ _ => ⟨rfl, rfl⟩)
  | .incZpx b, s => runs_rmw (reaches_eaZpx b s) (fun _ _ => ⟨rfl, rfl⟩) (fun _ _ => ⟨rfl, rfl⟩)
  | .isbZpx b, s => runs_rmw (reaches_eaZpx b s) (fun _ _ => ⟨rfl, rfl⟩) (fun _ _ => ⟨rfl, rfl⟩)
  | .sed, _ => runs_implied (fun _ => ⟨rfl, rfl⟩)
  | .sbcAby lo hi, s => runs_read (reaches_eaAby .read lo hi s) (fun _ _ => ⟨rfl, rfl⟩)
  | .nopImpFA, _ => runs_implied (fun _ => ⟨rfl, rfl⟩)
  | .isbAby lo hi, s => runs_rmw (reaches_eaAby .rmw lo hi s) (fun _ _ => ⟨rfl, rfl⟩) (fun _ _ => ⟨rfl, rfl⟩)
  | .nopAbxFC lo hi, s => runs_read (reaches_eaAbx .read lo hi s) (fun _ _ => ⟨rfl, rfl⟩)
  | .sbcAbx lo hi, s => runs_read (reaches_eaAbx .read lo hi s) (fun _ _ => ⟨rfl, rfl⟩)
  | .incAbx lo hi, s => runs_rmw (reaches_eaAbx .rmw lo hi s) (fun _ _ => ⟨rfl, rfl⟩) (fun _ _ => ⟨rfl, rfl⟩)
  | .isbAbx lo hi, s => runs_rmw (reaches_eaAbx .rmw lo hi s) (fun _ _ => ⟨rfl, rfl⟩) (fun _ _ => ⟨rfl, rfl⟩)

/-- What bus cycles and register changes keep, every instruction keeps. -/
theorem exec_closed {P : State → Prop} (hP : Closed P) {i : Instr} {s t : State} (h : exec i s = .next t) (hs : P s) :
    P t := by
  obtain ⟨u, hu, hr⟩ := exec_runs i s
  rw [next_inj (h.symm.trans hu)]
  exact hr P hP hs

/-- The fetch of an instruction: an opcode fetch, then the operand fetches. -/
theorem reaches_fetchInstr (s : State) : Reaches (fetchOperand s).2 (fetchInstr s).2 := by
  unfold fetchInstr
  dsimp only
  split
  · exact Reaches.refl _
  · exact reaches_fetchOperand _
  · exact (reaches_fetchOperand _).trans (reaches_fetchOperand _)

/-- A step that answers a next state ran: interrupts serviced, an opcode fetched, and the rest by bus cycles and
register changes. -/
theorem step_runs {s t : State} (h : step s = .next t) :
    s.runState = .running ∧ Reaches (fetchOperand (serviceInterrupts s)).2 t := by
  unfold step at h
  split at h
  · cases h
  · rename_i hr
    obtain ⟨u, hu, hx⟩ := exec_runs (fetchInstr (serviceInterrupts s)).1 (fetchInstr (serviceInterrupts s)).2
    rw [next_inj (h.symm.trans hu)]
    exact ⟨hr, (reaches_fetchInstr _).trans hx⟩

/-- What bus cycles and register changes keep, every step keeps. -/
theorem step_closed {P : State → Prop} (hP : Closed P) {s t : State} (h : step s = .next t) (hs : P s) : P t :=
  ((reaches_serviceInterrupts s).trans ((reaches_fetchOperand _).trans (step_runs h).2)) P hP hs

end Sys2Proof.Machine
end

