-- ==== Sys2Proof/Laws/Devices.lean ====
section
/-! SUPPORT. The same one level lower: what the parts of a bus cycle keep, every bus cycle keeps. -/

namespace Sys2Proof.Machine

/-- A property of states that the parts of a bus cycle keep. -/
structure DeviceClosed (P : State → Prop) : Prop where
  start : ∀ s, P s → P (cycleStart s)
  dot : ∀ s, P s → P (tickPpu s)
  capture : ∀ s, P s → P (captureInterrupts s)
  poll : ∀ s, P s → P (pollInterrupts s)
  down : ∀ s, P s → P (countDown s)
  effect : ∀ addr s, P s → P (deviceEffect addr s)
  store : ∀ addr v s, P s → P (deviceWrite addr v s)
  deliver : ∀ v s, P s → P (dmcDeliver v { s with dmcRequest := false })
  regs : ∀ c s, c.params = s.params → P s → P (s.withCpu c)
  nmi : ∀ s, P s → P { s with nmiPending := false }

variable {P : State → Prop}

theorem DeviceClosed.dots (h : DeviceClosed P) (k : Nat) (s : State) (hs : P s) : P (tickPpus k s) := by
  induction k generalizing s with
  | zero => exact hs
  | succ k ih => exact ih _ (h.dot s hs)

theorem DeviceClosed.finishRead (h : DeviceClosed P) (suppress : Bool) (addr : Word) (s : State) (hs : P s) :
    P (finishRead suppress addr s).2 := by
  refine h.poll _ (h.dots _ _ (h.effect _ _ (h.dots _ _ ?_)))
  split
  · exact hs
  · exact h.capture s hs

theorem DeviceClosed.stallRead (h : DeviceClosed P) (addr : Word) (s : State) (hs : P s) : P (stallRead addr s).2 :=
  h.finishRead false addr _ (h.start s hs)

theorem DeviceClosed.oamRead (h : DeviceClosed P) (addr : Word) (s : State) (hs : P s) : P (oamRead addr s).2 :=
  h.finishRead false addr _ (h.down _ (h.start s hs))

theorem DeviceClosed.stallDummy (h : DeviceClosed P) (addr : Word) (s : State) (hs : P s) : P (stallDummy addr s) := by
  unfold Machine.stallDummy
  split
  · exact h.stallRead addr s hs
  · exact h.poll _ (h.dots 3 _ (h.capture _ (h.start s hs)))

theorem DeviceClosed.dmcFetched (h : DeviceClosed P) (r : Byte × State) (hs : P r.2) : P (dmcFetched r) :=
  h.deliver r.1 r.2 hs

theorem DeviceClosed.dmcStall (h : DeviceClosed P) (addr : Word) (s : State) (hs : P s) : P (dmcStall addr s) :=
  h.dmcFetched _ (h.stallRead _ _ (h.stallDummy _ _ (h.stallDummy _ _ (h.stallDummy _ _ hs))))

theorem DeviceClosed.read (h : DeviceClosed P) (suppress : Bool) (addr : Word) (s : State) (hs : P s) :
    P (busReadWith suppress addr s).2 := by
  refine h.finishRead suppress addr _ ?_
  unfold serviceDmc
  repeat' split
  · exact h.down _ (h.start s hs)
  · exact h.dmcStall _ _ (h.start s hs)
  · exact h.start s hs

theorem DeviceClosed.writeCycle (h : DeviceClosed P) (addr : Word) (v : Byte) (s : State) (hs : P s) :
    P (writeCycle addr v s) :=
  h.poll _ (h.dots _ _ (h.store _ _ _ (h.dots _ _ (h.capture _ (h.down _ (h.start s hs))))))

theorem DeviceClosed.oamTransfer (h : DeviceClosed P) (src : Word) (s : State) (hs : P s) : P (oamTransfer src s) := by
  refine h.writeCycle _ _ _ (h.oamRead _ _ ?_)
  unfold oamServiceDmc
  split
  · exact h.dmcFetched _ (h.oamRead _ _ (h.oamRead _ _ hs))
  · exact hs

theorem DeviceClosed.oamCopy (h : DeviceClosed P) (page : Byte) (k i : Nat) (s : State) (hs : P s) :
    P (oamCopy page k i s) := by
  induction k generalizing i s with
  | zero => exact hs
  | succ k ih => exact ih _ _ (h.oamTransfer _ s hs)

theorem DeviceClosed.oamDma (h : DeviceClosed P) (page : Byte) (s : State) (hs : P s) : P (oamDma page s) := by
  unfold Machine.oamDma
  dsimp only
  generalize 256 = k
  refine h.oamCopy page k 0 _ ?_
  split
  · exact h.oamRead _ _ (h.oamRead _ _ hs)
  · exact h.oamRead _ _ hs

theorem DeviceClosed.write (h : DeviceClosed P) (addr : Word) (v : Byte) (s : State) (hs : P s) :
    P (busWrite addr v s) := by
  unfold busWrite
  dsimp only
  split
  · exact h.oamDma v _ (h.writeCycle addr v s hs)
  · exact h.writeCycle addr v s hs

/-- What the parts of a bus cycle keep, every bus cycle, instruction and step keeps. -/
theorem DeviceClosed.closed (h : DeviceClosed P) : Closed P := ⟨h.read, h.write, h.regs, h.nmi⟩

/-! ### The NMI line after a bus cycle -/

/-- The NMI line as the CPU last saw it is the picture unit's output. -/
def LineSeen (s : State) : Prop := s.nmiLine = s.ppu.nmiOutput

theorem lineSeen_poll (s : State) : LineSeen (pollInterrupts s) := rfl

theorem lineSeen_read (suppress : Bool) (addr : Word) (s : State) : LineSeen (busReadWith suppress addr s).2 :=
  lineSeen_poll _

theorem lineSeen_writeCycle (addr : Word) (v : Byte) (s : State) : LineSeen (writeCycle addr v s) := lineSeen_poll _

theorem lineSeen_oamCopy (page : Byte) (k i : Nat) (s : State) (hs : LineSeen s) : LineSeen (oamCopy page k i s) := by
  induction k generalizing i s with
  | zero => exact hs
  | succ k ih => exact ih (i + 1) _ (lineSeen_writeCycle _ _ _)

theorem lineSeen_oamDma (page : Byte) (s : State) : LineSeen (oamDma page s) := by
  unfold oamDma
  dsimp only
  generalize 256 = k
  refine lineSeen_oamCopy page k 0 _ ?_
  split
  · exact lineSeen_poll _
  · exact lineSeen_poll _

theorem lineSeen_write (addr : Word) (v : Byte) (s : State) : LineSeen (busWrite addr v s) := by
  unfold busWrite
  dsimp only
  split
  · exact lineSeen_oamDma v _
  · exact lineSeen_writeCycle addr v s

end Sys2Proof.Machine
end

