-- ==== Sys2Proof/Laws/ApuOk.lean ====
section
/-! SUPPORT. The audio unit keeps its ranges: every tick, register access and delivered byte. -/

namespace Sys2Proof.Machine

/-- A channel that is disabled has length 0 (63_apu.md R511). -/
def SilentIfOff (enabled : Bool) (length : Byte) : Prop := enabled = true ∨ length = 0

theorem silent_clock {e : Bool} {n : Byte} (halt : Bool) (h : SilentIfOff e n) : SilentIfOff e (clockLength halt n) := by
  rcases h with h | h
  · exact .inl h
  · refine .inr ?_
    simp [clockLength, h]

theorem silent_load {e : Bool} {n : Byte} (d : Byte) (h : SilentIfOff e n) : SilentIfOff e (loadLength e d n) := by
  rcases h with h | h
  · exact .inl h
  · cases e
    · exact .inr (by simp [loadLength, h])
    · exact .inl rfl

theorem silent_set (on : Bool) (n : Byte) : SilentIfOff on (if on then n else 0) := by
  cases on
  · exact .inr rfl
  · exact .inl rfl

/-- The ranges of the delta modulation channel, as propositions. -/
structure DmcRange (d : Dmc) : Prop where
  bits1 : 1 ≤ d.bitsLeft
  bits8 : d.bitsLeft ≤ 8
  timer : d.timer.toNat ≤ 427
  cur : 0x8000 ≤ d.curAddr.toNat
  sample : 0xC000 ≤ d.sampleAddr.toNat
  len : d.sampleLen ≠ 0

theorem dmcRange_iff (d : Dmc) : d.ok = true ↔ DmcRange d := by
  simp only [Dmc.ok, Bool.and_eq_true, decide_eq_true_eq, bne_iff_ne]
  constructor
  · rintro ⟨⟨⟨⟨⟨a, b⟩, c⟩, e⟩, f⟩, g⟩; exact ⟨a, b, c, e, f, g⟩
  · rintro ⟨a, b, c, e, f, g⟩; exact ⟨⟨⟨⟨⟨a, b⟩, c⟩, e⟩, f⟩, g⟩

/-- The ranges of the audio unit, as propositions. -/
structure ApuRange (u : Apu) : Prop where
  p1 : SilentIfOff u.p1.enabled u.p1.length
  p2 : SilentIfOff u.p2.enabled u.p2.length
  tri : SilentIfOff u.tri.enabled u.tri.length
  noise : SilentIfOff u.noise.enabled u.noise.length
  lfsr : u.noise.lfsr ≠ 0
  period : u.noise.timer.toNat ≤ 4067
  delay : u.fcDelay ≤ 3
  dmc : DmcRange u.dmc

theorem apuRange_iff (u : Apu) : u.ok = true ↔ ApuRange u := by
  simp only [Apu.ok, Bool.and_eq_true, Bool.or_eq_true, decide_eq_true_eq, bne_iff_ne, beq_iff_eq, dmcRange_iff]
  constructor
  · rintro ⟨⟨⟨⟨⟨⟨⟨a, b⟩, c⟩, d⟩, e⟩, f⟩, g⟩, h⟩; exact ⟨a, b, c, d, e, f, g, h⟩
  · rintro ⟨a, b, c, d, e, f, g, h⟩; exact ⟨⟨⟨⟨⟨⟨⟨a, b⟩, c⟩, d⟩, e⟩, f⟩, g⟩, h⟩

/-! ### The frame sequencer -/

theorem ApuRange.quarter {u : Apu} (h : ApuRange u) : ApuRange u.quarter :=
  ⟨h.p1, h.p2, h.tri, h.noise, h.lfsr, h.period, h.delay, h.dmc⟩

theorem clockSweep_enabled (first : Bool) (p : Pulse) : (p.clockSweep first).enabled = p.enabled := by
  unfold Pulse.clockSweep; split <;> rfl

theorem clockSweep_length (first : Bool) (p : Pulse) : (p.clockSweep first).length = p.length := by
  unfold Pulse.clockSweep; split <;> rfl

theorem ApuRange.half {u : Apu} (h : ApuRange u) : ApuRange u.half := by
  refine ⟨?_, ?_, silent_clock _ h.tri, silent_clock _ h.noise, h.lfsr, h.period, h.delay, h.dmc⟩
  · simp only [Apu.half, clockSweep_enabled, clockSweep_length]
    exact silent_clock _ h.p1
  · simp only [Apu.half, clockSweep_enabled, clockSweep_length]
    exact silent_clock _ h.p2

theorem ApuRange.frameIrqSet {u : Apu} (h : ApuRange u) : ApuRange u.frameIrqSet :=
  ⟨h.p1, h.p2, h.tri, h.noise, h.lfsr, h.period, h.delay, h.dmc⟩

theorem ApuRange.withSeq {u : Apu} (n : Nat) (h : ApuRange u) : ApuRange { u with seqCycle := n } :=
  ⟨h.p1, h.p2, h.tri, h.noise, h.lfsr, h.period, h.delay, h.dmc⟩

theorem ApuRange.sequencerStep {u : Apu} (h : ApuRange u) : ApuRange u.sequencerStep := by
  unfold Apu.sequencerStep
  repeat' split
  · exact h.quarter
  · exact h.quarter.half
  · exact h.quarter
  · exact h.quarter.half
  · exact h.withSeq 0
  · exact h
  · exact h.frameIrqSet
  · exact h.quarter.half.frameIrqSet
  · exact h.frameIrqSet.withSeq 0
  · exact h

theorem ApuRange.sequencerTick {u : Apu} (h : ApuRange u) : ApuRange u.sequencerTick := by
  unfold Apu.sequencerTick
  split
  · exact ⟨h.p1, h.p2, h.tri, h.noise, h.lfsr, h.period, by simp, h.dmc⟩
  · have hd := h.delay
    refine ApuRange.sequencerStep ⟨h.p1, h.p2, h.tri, h.noise, h.lfsr, h.period, ?_, h.dmc⟩
    simp only
    omega

/-! ### The timers -/

theorem pulse_clockTimer (p : Pulse) : p.clockTimer.enabled = p.enabled ∧ p.clockTimer.length = p.length := by
  unfold Pulse.clockTimer; split <;> exact ⟨rfl, rfl⟩

theorem tri_clockTimer (t : Triangle) : t.clockTimer.enabled = t.enabled ∧ t.clockTimer.length = t.length := by
  unfold Triangle.clockTimer; split <;> exact ⟨rfl, rfl⟩

theorem noise_clockTimer (n : Noise) : n.clockTimer.enabled = n.enabled ∧ n.clockTimer.length = n.length := by
  unfold Noise.clockTimer; split <;> exact ⟨rfl, rfl⟩

/-- The noise shift register never becomes 0 (63_apu.md R517). -/
theorem noise_lfsr (n : Noise) (h : n.lfsr ≠ 0) : n.clockTimer.lfsr ≠ 0 := by
  unfold Noise.clockTimer
  split
  · simp only [Noise.shiftLfsr]
    intro hz
    apply h
    apply BitVec.eq_of_getLsbD_eq
    intro i hi
    have top := congrArg (fun v : BitVec 15 => v.getLsbD 14) hz
    have rest : ∀ j, j + 1 < 15 → n.lfsr.getLsbD (j + 1) = false := fun j hj => by
      have := congrArg (fun v : BitVec 15 => v.getLsbD j) hz
      have hj' : ¬ (14 ≤ j) := by omega
      have z : (0 : BitVec 15).getLsbD j = false := by simp
      simp only [BitVec.getLsbD_or, BitVec.getLsbD_ushiftRight, z, Bool.or_eq_false_iff] at this
      rw [Nat.add_comm]
      exact this.1
    rcases Nat.eq_zero_or_pos i with h0 | h0
    · subst h0
      have h1 := rest 0 (by omega)
      have h6 := rest 5 (by omega)
      have z : (0 : BitVec 15).getLsbD 14 = false := by simp
      simp only [BitVec.getLsbD_or, BitVec.getLsbD_ushiftRight, BitVec.getLsbD_shiftLeft, z, bit,
        Bool.or_eq_false_iff] at top
      have t2 := top.2
      rw [h1, h6] at t2
      simpa using t2
    · obtain ⟨j, rfl⟩ : ∃ j, i = j + 1 := ⟨i - 1, by omega⟩
      simpa using rest j hi
  · exact h

theorem noiseTable_le (i : Nat) : noiseTable.getD i 4 ≤ 4068 := by
  by_cases h : i < 16
  · have : ∀ j : Fin 16, noiseTable.getD j.val 4 ≤ 4068 := by decide
    exact this ⟨i, h⟩
  · rw [List.getD_eq_getElem?_getD, List.getElem?_eq_none (show noiseTable.length ≤ i from Nat.le_of_not_lt h)]
    decide

theorem dmcRateTable_le (i : Nat) : dmcRateTable.getD i 428 ≤ 428 := by
  by_cases h : i < 16
  · have : ∀ j : Fin 16, dmcRateTable.getD j.val 428 ≤ 428 := by decide
    exact this ⟨i, h⟩
  · rw [List.getD_eq_getElem?_getD, List.getElem?_eq_none (show dmcRateTable.length ≤ i from Nat.le_of_not_lt h)]
    exact Nat.le_refl _

theorem noise_timer (n : Noise) (h : n.timer.toNat ≤ 4067) : n.clockTimer.timer.toNat ≤ 4067 := by
  unfold Noise.clockTimer
  split
  · have := noiseTable_le n.periodIndex.toNat
    simp only [BitVec.toNat_ofNat]
    exact Nat.le_trans (Nat.mod_le _ _) (by omega)
  · rename_i hz
    have : n.timer.toNat ≠ 0 := fun e => hz (BitVec.eq_of_toNat_eq (by simpa using e))
    rw [BitVec.toNat_sub_of_le (BitVec.le_def.mpr (by simp; omega))]
    omega

theorem DmcRange.clockTimer {d : Dmc} (h : DmcRange d) : DmcRange d.clockTimer := by
  unfold Dmc.clockTimer
  split
  · rename_i hz
    refine ⟨h.bits1, h.bits8, ?_, h.cur, h.sample, h.len⟩
    have : d.timer.toNat ≠ 0 := fun e => hz (BitVec.eq_of_toNat_eq (by simpa using e))
    have ht := h.timer
    simp only
    rw [BitVec.toNat_sub_of_le (BitVec.le_def.mpr (by simp; omega))]
    omega
  · have hr := dmcRateTable_le d.rateIndex.toNat
    have ht : (BitVec.ofNat 9 (dmcRateTable.getD d.rateIndex.toNat 428 - 1)).toNat ≤ 427 := by
      simp only [BitVec.toNat_ofNat]
      exact Nat.le_trans (Nat.mod_le _ _) (by omega)
    have hb := h.bits8
    dsimp only
    split
    · unfold Dmc.reloadShift
      split <;> exact ⟨by simp, by simp, ht, h.cur, h.sample, h.len⟩
    · rename_i hn
      exact ⟨by simp only at hn ⊢; omega, by simp only at hn ⊢; omega, ht, h.cur, h.sample, h.len⟩

theorem ApuRange.pulseTimers {u : Apu} (h : ApuRange u) : ApuRange u.pulseTimers := by
  unfold Apu.pulseTimers
  split
  · refine ⟨?_, ?_, h.tri, h.noise, h.lfsr, h.period, h.delay, h.dmc⟩
    · simp only [pulse_clockTimer]; exact h.p1
    · simp only [pulse_clockTimer]; exact h.p2
  · exact h

/-- Every tick keeps the ranges. -/
theorem ApuRange.tick {u : Apu} (h : ApuRange u) : ApuRange u.tick := by
  have h0 : ApuRange { u with apuOdd := !u.apuOdd } :=
    ⟨h.p1, h.p2, h.tri, h.noise, h.lfsr, h.period, h.delay, h.dmc⟩
  have h1 := h0.sequencerTick.pulseTimers
  refine ⟨h1.p1, h1.p2, ?_, ?_, ?_, ?_, h1.delay, h1.dmc.clockTimer⟩
  · simp only [Apu.tick, tri_clockTimer]; exact h1.tri
  · simp only [Apu.tick, noise_clockTimer]; exact h1.noise
  · exact noise_lfsr _ h1.lfsr
  · exact noise_timer _ h1.period

/-! ### Register accesses -/

theorem ApuRange.readStatus {u : Apu} (h : ApuRange u) : ApuRange u.readStatus :=
  ⟨h.p1, h.p2, h.tri, h.noise, h.lfsr, h.period, h.delay, h.dmc⟩

theorem sampleAddr_range (v : Byte) : 0xC000 ≤ (0xC000#16 + (zext16 v <<< 6)).toNat := by
  have : ∀ v : Byte, 0xC000 ≤ (0xC000#16 + (zext16 v <<< 6)).toNat := by decide
  exact this v

theorem sampleLen_range (v : Byte) : (v.setWidth 12 <<< 4) + 1 ≠ (0 : BitVec 12) := by
  have : ∀ v : Byte, (v.setWidth 12 <<< 4) + 1 ≠ (0 : BitVec 12) := by decide
  exact this v

theorem ApuRange.writeChannel {u : Apu} (r : Nat) (d : Byte) (h : ApuRange u) : ApuRange (u.writeChannel r d) := by
  have hd := h.dmc
  unfold Apu.writeChannel
  split
  case h_4 => exact ⟨silent_load d h.p1, h.p2, h.tri, h.noise, h.lfsr, h.period, h.delay, h.dmc⟩
  case h_8 => exact ⟨h.p1, silent_load d h.p2, h.tri, h.noise, h.lfsr, h.period, h.delay, h.dmc⟩
  case h_11 => exact ⟨h.p1, h.p2, silent_load d h.tri, h.noise, h.lfsr, h.period, h.delay, h.dmc⟩
  case h_14 => exact ⟨h.p1, h.p2, h.tri, silent_load d h.noise, h.lfsr, h.period, h.delay, h.dmc⟩
  case h_17 =>
    exact ⟨h.p1, h.p2, h.tri, h.noise, h.lfsr, h.period, h.delay,
      ⟨hd.bits1, hd.bits8, hd.timer, hd.cur, sampleAddr_range d, hd.len⟩⟩
  case h_18 =>
    exact ⟨h.p1, h.p2, h.tri, h.noise, h.lfsr, h.period, h.delay,
      ⟨hd.bits1, hd.bits8, hd.timer, hd.cur, hd.sample, sampleLen_range d⟩⟩
  case h_15 =>
    exact ⟨h.p1, h.p2, h.tri, h.noise, h.lfsr, h.period, h.delay,
      ⟨hd.bits1, hd.bits8, hd.timer, hd.cur, hd.sample, hd.len⟩⟩
  case h_16 =>
    exact ⟨h.p1, h.p2, h.tri, h.noise, h.lfsr, h.period, h.delay,
      ⟨hd.bits1, hd.bits8, hd.timer, hd.cur, hd.sample, hd.len⟩⟩
  all_goals exact ⟨h.p1, h.p2, h.tri, h.noise, h.lfsr, h.period, h.delay, h.dmc⟩

theorem DmcRange.setEnabled {d : Dmc} (on : Bool) (h : DmcRange d) : DmcRange (d.setEnabled on) := by
  have hs := h.sample
  unfold Dmc.setEnabled
  repeat' split
  · exact ⟨h.bits1, h.bits8, h.timer, h.cur, h.sample, h.len⟩
  · exact ⟨h.bits1, h.bits8, h.timer, by simp only; omega, h.sample, h.len⟩
  · exact h

theorem ApuRange.writeEnables {u : Apu} (d : Byte) (h : ApuRange u) : ApuRange (u.writeEnables d) :=
  ⟨silent_set _ _, silent_set _ _, silent_set _ _, silent_set _ _, h.lfsr, h.period, h.delay, h.dmc.setEnabled _⟩

theorem ApuRange.writeFrameCounter {u : Apu} (now : Nat) (d : Byte) (h : ApuRange u) :
    ApuRange (u.writeFrameCounter now d) := by
  unfold Apu.writeFrameCounter
  dsimp only
  have h1 : ApuRange { u with mode5 := d.getLsbD 7, inhibit := d.getLsbD 6, frameIrq := u.frameIrq && !d.getLsbD 6 } :=
    ⟨h.p1, h.p2, h.tri, h.noise, h.lfsr, h.period, h.delay, h.dmc⟩
  have hd : (if now % 2 = 1 then 3 else 2) ≤ 3 := by split <;> omega
  split
  · have h2 := h1.quarter.half
    exact ⟨h2.p1, h2.p2, h2.tri, h2.noise, h2.lfsr, h2.period, hd, h2.dmc⟩
  · exact ⟨h1.p1, h1.p2, h1.tri, h1.noise, h1.lfsr, h1.period, hd, h1.dmc⟩

/-- A sample address in the cartridge is followed by one (63_apu.md R541). -/
theorem nextSampleAddr_range (a : Word) (h : 0x8000 ≤ a.toNat) : 0x8000 ≤ (nextSampleAddr a).toNat := by
  unfold nextSampleAddr
  split
  · decide
  · rename_i hn
    have : a.toNat ≠ 0xFFFF := fun e => hn (BitVec.eq_of_toNat_eq (by simpa using e))
    have hl := a.isLt
    rw [BitVec.toNat_add, show (1 : BitVec 16).toNat = 1 from rfl]
    omega

theorem DmcRange.deliver {d : Dmc} (v : Byte) (left : BitVec 12) (h : DmcRange d) : DmcRange (d.deliver v left) := by
  have hs := h.sample
  unfold Dmc.deliver
  split
  · exact ⟨h.bits1, h.bits8, h.timer, by simp only; omega, h.sample, h.len⟩
  · exact ⟨h.bits1, h.bits8, h.timer, nextSampleAddr_range _ h.cur, h.sample, h.len⟩

end Sys2Proof.Machine
end

