-- ==== Sys2Proof/Laws/PpuOk.lean ====
section
/-! SUPPORT. The picture unit keeps its ranges: every dot and every register access. -/

namespace Sys2Proof.Machine

/-! ### The memories of the picture unit -/

/-- Masking the attribute bits that do not exist is idempotent (62_ppu.md R423). -/
theorem oamKeep_idem (i d : Byte) : oamKeep i (oamKeep i d) = oamKeep i d := by
  unfold oamKeep
  split
  · rw [BitVec.and_assoc, BitVec.and_self]
  · rfl

theorem oamOk_write (m : Memory) (i d : Byte) (h : oamOk m) : oamOk (m.write i.toNat (oamKeep i d)) := by
  simp only [oamOk, Bool.and_eq_true] at h ⊢
  refine ⟨⟨Memory.wf_write _ _ _ h.1.1, Memory.below_write _ _ _ _ i.isLt h.1.2⟩, ?_⟩
  refine Memory.all_write _ _ _ _ ?_ h.2
  simp only [beq_iff_eq, BitVec.ofNat_toNat, BitVec.setWidth_eq]
  exact oamKeep_idem i d

theorem frameOk_write (m : Memory) (a : Nat) (c : BitVec 6) (ha : a < 61440) (h : frameOk m) :
    frameOk (m.write a (c.setWidth 8)) := by
  simp only [frameOk, Bool.and_eq_true] at h ⊢
  refine ⟨⟨Memory.wf_write _ _ _ h.1.1, Memory.below_write _ _ _ _ ha h.1.2⟩, ?_⟩
  refine Memory.all_write _ _ _ _ ?_ h.2
  have := c.isLt
  simp only [decide_eq_true_eq, BitVec.toNat_setWidth]
  omega

/-- Nametable addresses stay within nametable RAM, which has four banks only for four-screen mirroring
(64_cartridge_mappers.md R574, R576). -/
theorem ntIndex_lt (mi header : Mirroring) (a : BitVec 14) (h : mi ≠ .fourScreen ∨ header = .fourScreen) :
    ntIndex mi a < vramSize header := by
  unfold ntIndex vramSize
  dsimp only
  have h1 : a.toNat % 0x1000 < 0x1000 := Nat.mod_lt _ (by decide)
  generalize a.toNat % 0x1000 = n at h1
  have h3 : n / 0x400 < 4 := by omega
  have h4 : n % 0x400 < 0x400 := Nat.mod_lt _ (by decide)
  have hb : ntBank mi (n / 0x400) < 2 ∨ (mi = .fourScreen ∧ ntBank mi (n / 0x400) < 4) := by
    cases mi
    case fourScreen => exact .inr ⟨rfl, h3⟩
    all_goals exact .inl (by simp only [ntBank]; omega)
  rcases hb with hb | ⟨rfl, hb⟩
  · split <;> omega
  · rcases h with h | h
    · exact absurd rfl h
    · rw [if_pos h]
      omega

/-! ### Sprite evaluation -/

/-- Sprite evaluation in range, as propositions. -/
structure EvalRange (e : SpriteEval) : Prop where
  found : e.found ≤ 8
  copy : e.copy ≤ 3
  n : e.done = true ∨ e.n < 64
  room : e.copy = 0 ∨ e.found < 8

theorem evalRange_iff (e : SpriteEval) : e.ok = true ↔ EvalRange e := by
  simp only [SpriteEval.ok, Bool.and_eq_true, Bool.or_eq_true, decide_eq_true_eq, beq_iff_eq]
  constructor
  · rintro ⟨⟨⟨a, b⟩, c⟩, d⟩; exact ⟨a, b, c, d⟩
  · rintro ⟨a, b, c, d⟩; exact ⟨⟨⟨a, b⟩, c⟩, d⟩

theorem EvalRange.next {e : SpriteEval} (hf : e.found ≤ 8) (hc : e.copy = 0) (hn : e.n < 64) : EvalRange e.next := by
  refine ⟨hf, by simp [SpriteEval.next, hc], ?_, .inl hc⟩
  simp only [SpriteEval.next, beq_iff_eq]
  omega

theorem evalRange_zero0 : EvalRange SpriteEval.zero0 := ⟨by decide, by decide, .inr (by decide), .inl rfl⟩

/-- One step of sprite evaluation keeps its ranges. -/
theorem EvalRange.step {p : Ppu} (h : EvalRange p.eval) : EvalRange p.evalStep.eval := by
  have hn := h.n
  have hc := h.copy
  have hr := h.room
  have hf := h.found
  unfold Ppu.evalStep
  dsimp only
  split
  · exact h
  · rename_i hd
    have hlt : p.eval.n < 64 := hn.resolve_left hd
    split
    · rename_i hpos
      have hfound : p.eval.found < 8 := hr.resolve_left (by omega)
      dsimp only
      split
      · rename_i hz
        exact EvalRange.next (e := { p.eval with copy := p.eval.copy - 1, found := p.eval.found + 1 }) hfound hz hlt
      · exact ⟨hf, by dsimp only; omega, hn, .inr hfound⟩
    · rename_i hpos
      have h0 : p.eval.copy = 0 := by omega
      split
      · rename_i hfound
        dsimp only
        split
        · exact ⟨hf, Nat.le_refl _, hn, .inr hfound⟩
        · exact EvalRange.next hf h0 hlt
      · split
        · exact ⟨hf, hc, .inl rfl, hr⟩
        · exact EvalRange.next (e := { p.eval with m := p.eval.m + 1 }) hf h0 hlt

/-! ### The whole unit -/

/-- The ranges of the picture unit, as propositions. -/
structure PpuRange (header : Mirroring) (p : Ppu) : Prop where
  dot : p.dot ≤ 340
  line : p.scanline ≤ 261
  oam : oamOk p.oam
  frame : frameOk p.frame
  ntWf : p.ntRam.wf
  ntBelow : p.ntRam.below (vramSize header)
  spr : p.sprCount ≤ 8
  eval : EvalRange p.eval

theorem ppuRange_iff (header : Mirroring) (p : Ppu) : p.ok header = true ↔ PpuRange header p := by
  simp only [Ppu.ok, Bool.and_eq_true, decide_eq_true_eq, evalRange_iff]
  constructor
  · rintro ⟨⟨⟨⟨⟨⟨⟨a, b⟩, c⟩, d⟩, e⟩, f⟩, g⟩, h⟩; exact ⟨a, b, c, d, e, f, g, h⟩
  · rintro ⟨a, b, c, d, e, f, g, h⟩; exact ⟨⟨⟨⟨⟨⟨⟨a, b⟩, c⟩, d⟩, e⟩, f⟩, g⟩, h⟩

variable {header : Mirroring} {p : Ppu}

/-- What the picture unit's ranges speak about. -/
structure Ppu.SameRange (p q : Ppu) : Prop where
  dot : q.dot = p.dot
  line : q.scanline = p.scanline
  oam : q.oam = p.oam
  frame : q.frame = p.frame
  nt : q.ntRam = p.ntRam
  spr : q.sprCount = p.sprCount
  eval : q.eval = p.eval

theorem Ppu.SameRange.refl (p : Ppu) : Ppu.SameRange p p := ⟨rfl, rfl, rfl, rfl, rfl, rfl, rfl⟩

theorem Ppu.SameRange.trans {p q r : Ppu} (h : Ppu.SameRange p q) (k : Ppu.SameRange q r) : Ppu.SameRange p r :=
  ⟨k.dot.trans h.dot, k.line.trans h.line, k.oam.trans h.oam, k.frame.trans h.frame, k.nt.trans h.nt,
    k.spr.trans h.spr, k.eval.trans h.eval⟩

theorem PpuRange.same {q : Ppu} (h : PpuRange header p) (k : Ppu.SameRange p q) : PpuRange header q := by
  refine ⟨?_, ?_, ?_, ?_, ?_, ?_, ?_, ?_⟩
  · rw [k.dot]; exact h.dot
  · rw [k.line]; exact h.line
  · rw [k.oam]; exact h.oam
  · rw [k.frame]; exact h.frame
  · rw [k.nt]; exact h.ntWf
  · rw [k.nt]; exact h.ntBelow
  · rw [k.spr]; exact h.spr
  · rw [k.eval]; exact h.eval

theorem Ppu.sameRange_bgFetch (now ph : Nat) (p : Ppu) (c : Cart) : Ppu.SameRange p (p.bgFetch now ph c).1 := by
  unfold Ppu.bgFetch
  split <;> exact ⟨rfl, rfl, rfl, rfl, rfl, rfl, rfl⟩

theorem Ppu.sameRange_renderBg (now : Nat) (p : Ppu) (c : Cart) : Ppu.SameRange p (p.renderBg now c).1 := by
  unfold Ppu.renderBg
  split
  · refine Ppu.SameRange.trans (q := { p with bg := p.bg.shift }) ?_ (Ppu.sameRange_bgFetch now _ _ c)
    exact ⟨rfl, rfl, rfl, rfl, rfl, rfl, rfl⟩
  · exact Ppu.SameRange.refl p

theorem Ppu.sameRange_renderScroll (p : Ppu) : Ppu.SameRange p p.renderScroll := by
  unfold Ppu.renderScroll
  repeat' split
  all_goals exact ⟨rfl, rfl, rfl, rfl, rfl, rfl, rfl⟩

theorem PpuRange.evalStep (h : PpuRange header p) : PpuRange header p.evalStep := by
  have hk : p.evalStep.dot = p.dot ∧ p.evalStep.scanline = p.scanline ∧ p.evalStep.oam = p.oam
      ∧ p.evalStep.frame = p.frame ∧ p.evalStep.ntRam = p.ntRam ∧ p.evalStep.sprCount = p.sprCount := by
    unfold Ppu.evalStep
    dsimp only
    repeat' split
    all_goals exact ⟨rfl, rfl, rfl, rfl, rfl, rfl⟩
  obtain ⟨h1, h2, h3, h4, h5, h6⟩ := hk
  refine ⟨?_, ?_, ?_, ?_, ?_, ?_, ?_, h.eval.step⟩
  · rw [h1]; exact h.dot
  · rw [h2]; exact h.line
  · rw [h3]; exact h.oam
  · rw [h4]; exact h.frame
  · rw [h5]; exact h.ntWf
  · rw [h5]; exact h.ntBelow
  · rw [h6]; exact h.spr

theorem PpuRange.spriteEvalDot (h : PpuRange header p) : PpuRange header p.spriteEvalDot := by
  unfold Ppu.spriteEvalDot
  split
  · split
    · exact h.same ⟨rfl, rfl, rfl, rfl, rfl, rfl, rfl⟩
    · exact h
  · split
    · refine PpuRange.evalStep ?_
      split
      · exact ⟨h.dot, h.line, h.oam, h.frame, h.ntWf, h.ntBelow, h.spr, evalRange_zero0⟩
      · exact h
    · exact h

theorem PpuRange.loadSlot (i : Nat) (hi : Byte) (h : PpuRange header p) : PpuRange header (p.loadSlot i hi) := by
  unfold Ppu.loadSlot
  dsimp only
  split
  · refine ⟨h.dot, h.line, h.oam, h.frame, h.ntWf, h.ntBelow, ?_, h.eval⟩
    dsimp only
    split
    · exact Nat.zero_le _
    · exact h.eval.found
  · exact h.same ⟨rfl, rfl, rfl, rfl, rfl, rfl, rfl⟩

theorem PpuRange.spriteFetchDot (n now : Nat) (c : Cart) (h : PpuRange header p) :
    PpuRange header (p.spriteFetchDot n now c).1 := by
  unfold Ppu.spriteFetchDot
  dsimp only
  split
  · exact h.same ⟨rfl, rfl, rfl, rfl, rfl, rfl, rfl⟩
  · exact h
  · exact h
  · exact h.same ⟨rfl, rfl, rfl, rfl, rfl, rfl, rfl⟩
  · exact h.loadSlot _ _
  · exact h

theorem PpuRange.renderDot (n now : Nat) (c : Cart) (h : PpuRange header p) :
    PpuRange header (p.renderDot n now c).1 := by
  unfold Ppu.renderDot
  dsimp only
  have h1 := (h.same (Ppu.sameRange_renderBg now p c)).same (Ppu.sameRange_renderScroll _)
  generalize ((p.renderBg now c).1).renderScroll = p1 at h1
  have h2 : PpuRange header (if p.visibleLine then p1.spriteEvalDot else p1) := by
    split
    · exact h1.spriteEvalDot
    · exact h1
  generalize (if p.visibleLine then p1.spriteEvalDot else p1) = p2 at h2
  split
  · exact PpuRange.spriteFetchDot n now _ (h2.same ⟨rfl, rfl, rfl, rfl, rfl, rfl, rfl⟩)
  · exact h2

theorem PpuRange.pixelDot (h : PpuRange header p) : PpuRange header p.pixelDot := by
  unfold Ppu.pixelDot
  split
  · rename_i hv
    have hl : p.scanline ≤ 239 := by simpa [Ppu.visibleLine] using hv.1
    have hf : PpuRange header (p.outputPixel (p.dot - 1)) :=
      ⟨h.dot, h.line, h.oam, frameOk_write _ _ _ (by omega) h.frame, h.ntWf, h.ntBelow, h.spr, h.eval⟩
    dsimp only
    split
    · exact hf.same ⟨rfl, rfl, rfl, rfl, rfl, rfl, rfl⟩
    · exact hf
  · exact h

theorem PpuRange.flagDot (h : PpuRange header p) : PpuRange header p.flagDot := by
  unfold Ppu.flagDot
  repeat' split
  all_goals exact h.same ⟨rfl, rfl, rfl, rfl, rfl, rfl, rfl⟩

theorem PpuRange.advance (h : PpuRange header p) : PpuRange header p.advance := by
  have hd := h.dot
  have hl := h.line
  have at' (d l : Nat) (o : Bool) (hd : d ≤ 340) (hl : l ≤ 261) :
      PpuRange header { p with dot := d, scanline := l, oddFrame := o } :=
    ⟨hd, hl, h.oam, h.frame, h.ntWf, h.ntBelow, h.spr, h.eval⟩
  unfold Ppu.advance
  repeat' split
  all_goals exact at' _ _ _ (by omega) (by omega)

/-- Every dot keeps the ranges. -/
theorem PpuRange.tick (n now : Nat) (c : Cart) (h : PpuRange header p) : PpuRange header (p.tick n now c).1 := by
  unfold Ppu.tick
  dsimp only
  refine PpuRange.advance (PpuRange.flagDot ?_)
  split
  · exact h.pixelDot.renderDot n now c
  · exact h.pixelDot

/-! ### Register accesses -/

theorem Ppu.sameRange_incrementV (now : Nat) (p : Ppu) (c : Cart) : Ppu.SameRange p (p.incrementV now c).1 := by
  unfold Ppu.incrementV
  split <;> exact ⟨rfl, rfl, rfl, rfl, rfl, rfl, rfl⟩

theorem PpuRange.readStatus (h : PpuRange header p) : PpuRange header p.readStatus :=
  h.same ⟨rfl, rfl, rfl, rfl, rfl, rfl, rfl⟩

theorem PpuRange.readData (now : Nat) (c : Cart) (h : PpuRange header p) : PpuRange header (p.readData now c).1 := by
  unfold Ppu.readData
  dsimp only
  refine PpuRange.same ?_ (Ppu.sameRange_incrementV now _ _)
  exact h.same ⟨rfl, rfl, rfl, rfl, rfl, rfl, rfl⟩

theorem PpuRange.writeCtrl (now : Nat) (d : Byte) (h : PpuRange header p) : PpuRange header (p.writeCtrl now d) := by
  unfold Ppu.writeCtrl
  split <;> exact h.same ⟨rfl, rfl, rfl, rfl, rfl, rfl, rfl⟩

theorem PpuRange.writeMask (now : Nat) (d : Byte) (h : PpuRange header p) : PpuRange header (p.writeMask now d) := by
  unfold Ppu.writeMask
  split <;> exact h.same ⟨rfl, rfl, rfl, rfl, rfl, rfl, rfl⟩

theorem PpuRange.writeOamAddr (d : Byte) (h : PpuRange header p) : PpuRange header (p.writeOamAddr d) :=
  h.same ⟨rfl, rfl, rfl, rfl, rfl, rfl, rfl⟩

theorem PpuRange.writeOamData (d : Byte) (h : PpuRange header p) : PpuRange header (p.writeOamData d) := by
  unfold Ppu.writeOamData
  split
  · exact h.same ⟨rfl, rfl, rfl, rfl, rfl, rfl, rfl⟩
  · exact ⟨h.dot, h.line, oamOk_write _ _ _ h.oam, h.frame, h.ntWf, h.ntBelow, h.spr, h.eval⟩

theorem PpuRange.writeScroll (now : Nat) (d : Byte) (h : PpuRange header p) : PpuRange header (p.writeScroll now d) := by
  unfold Ppu.writeScroll
  repeat' split
  all_goals exact h.same ⟨rfl, rfl, rfl, rfl, rfl, rfl, rfl⟩

theorem PpuRange.writeAddr (now : Nat) (d : Byte) (c : Cart) (h : PpuRange header p) :
    PpuRange header (p.writeAddr now d c).1 := by
  unfold Ppu.writeAddr
  repeat' split
  all_goals exact h.same ⟨rfl, rfl, rfl, rfl, rfl, rfl, rfl⟩

theorem PpuRange.writeData (now : Nat) (d : Byte) (c : Cart)
    (hm : c.mirroring ≠ .fourScreen ∨ header = .fourScreen) (h : PpuRange header p) :
    PpuRange header (p.writeData now d c).1 := by
  unfold Ppu.writeData
  dsimp only
  refine PpuRange.same ?_ (Ppu.sameRange_incrementV now _ _)
  unfold Ppu.busWrite
  dsimp only
  repeat' split
  · exact h
  · exact ⟨h.dot, h.line, h.oam, h.frame, Memory.wf_write _ _ _ h.ntWf,
      Memory.below_write _ _ _ _ (ntIndex_lt _ _ _ hm) h.ntBelow, h.spr, h.eval⟩
  · exact h.same ⟨rfl, rfl, rfl, rfl, rfl, rfl, rfl⟩

end Sys2Proof.Machine
end

