-- ==== Sys2Proof/Laws/CartOk.lean ====
section
/-! SUPPORT. The cartridge keeps its ranges; what its view of the picture unit's address bus keeps, every dot keeps. -/

namespace Sys2Proof.Machine

/-! ### Banks stay within the memory -/

theorem bankIndex_lt (k s b offset i : Nat) (hs : 0 < s) (ho : offset < s) (h : bankIndex (k * s) s b offset = some i) :
    i < k * s := by
  unfold bankIndex at h
  rw [Nat.mul_div_cancel _ hs] at h
  split at h
  · contradiction
  · rename_i hk
    simp only [Option.some.injEq] at h
    have hm : b % k < k := Nat.mod_lt _ (Nat.pos_of_ne_zero hk)
    have : (b % k + 1) * s ≤ k * s := Nat.mul_le_mul_right s hm
    rw [Nat.add_mul] at this
    omega

/-- Pattern RAM is addressed within its 8 KiB (64_cartridge_mappers.md R572, R577). -/
theorem chrIndex_lt (c : Cart) (a i : Nat) (hr : c.chrIsRam) (ha : a < 0x2000) (h : c.chrIndex a = some i) :
    i < 8192 := by
  have hz : c.chrSize = 8192 := by
    unfold Cart.chrSize
    rw [if_pos (by simpa [Cart.chrIsRam] using hr)]
  unfold Cart.chrIndex at h
  rw [hz] at h
  cases hm : c.mapper with
  | nrom => rw [hm] at h; simp only [Option.some.injEq] at h; omega
  | uxrom bank => rw [hm] at h; simp only [Option.some.injEq] at h; omega
  | cnrom bank =>
    rw [hm] at h
    exact bankIndex_lt 1 0x2000 _ _ _ (by omega) ha h
  | mmc1 m =>
    rw [hm] at h
    dsimp only at h
    unfold chrMmc1 at h
    split at h
    · split at h
      · rename_i hlt; exact bankIndex_lt 2 0x1000 _ _ _ (by omega) hlt h
      · exact bankIndex_lt 2 0x1000 _ _ _ (by omega) (by omega) h
    · exact bankIndex_lt 1 0x2000 _ _ _ (by omega) ha h
  | mmc3 m =>
    rw [hm] at h
    exact bankIndex_lt 8 0x400 _ _ _ (by omega) (Nat.mod_lt _ (by omega)) h

/-! ### The ranges -/

/-- The ranges of the cartridge in bus cycle `now`, as propositions. -/
structure CartRange (now : Nat) (c : Cart) : Prop where
  rom : c.prgRom.wf
  ram : c.prgRam.wf
  ramBelow : c.prgRam.below 8192
  chr : c.chr.wf
  chrBelow : c.chrIsRam = false ∨ c.chr.below 8192
  four : c.mirroring ≠ .fourScreen ∨ c.headerMirroring = .fourScreen
  mapper : c.mapper.ok now

theorem cartRange_iff (now : Nat) (c : Cart) : c.ok now = true ↔ CartRange now c := by
  simp only [Cart.ok, Bool.and_eq_true, Bool.or_eq_true, Bool.not_eq_true', bne_iff_ne, beq_iff_eq]
  constructor
  · rintro ⟨⟨⟨⟨⟨⟨a, b⟩, c⟩, d⟩, e⟩, f⟩, g⟩; exact ⟨a, b, c, d, e, f, g⟩
  · rintro ⟨a, b, c, d, e, f, g⟩; exact ⟨⟨⟨⟨⟨⟨a, b⟩, c⟩, d⟩, e⟩, f⟩, g⟩

theorem mmc1_ok_iff (now : Nat) (m : Mmc1) :
    (Mapper.mmc1 m).ok now = true ↔ m.shift ≠ 0 ∧ ∀ t, m.lastWrite = some t → t ≤ now := by
  simp only [Mapper.ok, Bool.and_eq_true, bne_iff_ne]
  refine and_congr Iff.rfl ?_
  cases m.lastWrite <;> simp

theorem mapper_ok_mono (now : Nat) (m : Mapper) (h : m.ok now) : m.ok (now + 1) := by
  cases m with
  | mmc1 r =>
    rw [mmc1_ok_iff] at h ⊢
    exact ⟨h.1, fun t ht => Nat.le_succ_of_le (h.2 t ht)⟩
  | mmc3 r =>
    simp only [Mapper.ok, decide_eq_true_eq] at h ⊢
    exact Nat.le_succ_of_le h
  | _ => rfl

variable {now : Nat} {c : Cart}

theorem CartRange.later (h : CartRange now c) : CartRange (now + 1) c :=
  ⟨h.rom, h.ram, h.ramBelow, h.chr, h.chrBelow, h.four, mapper_ok_mono _ _ h.mapper⟩

theorem CartRange.setPpuAddress (p : BitVec 14) (h : CartRange now c) : CartRange now (c.setPpuAddress now p) := by
  unfold Cart.setPpuAddress
  split
  · rename_i m hm
    have hk := h.mapper
    rw [hm] at hk
    simp only [Mapper.ok, decide_eq_true_eq] at hk
    refine ⟨h.rom, h.ram, h.ramBelow, h.chr, h.chrBelow, h.four, ?_⟩
    refine decide_eq_true (?_ : (m.setPpuAddress now p).a12LowAt ≤ now)
    unfold Mmc3.setPpuAddress
    dsimp only
    split
    · exact Nat.le_refl _
    · split
      · exact hk
      · exact hk
  · exact h

theorem CartRange.chrWrite (a : Nat) (v : Byte) (ha : a < 0x2000) (h : CartRange now c) : CartRange now (c.chrWrite a v) := by
  unfold Cart.chrWrite
  split
  · rename_i hr
    split
    · rename_i i hi
      refine ⟨h.rom, h.ram, h.ramBelow, Memory.wf_write _ _ _ h.chr, .inr ?_, h.four, h.mapper⟩
      refine Memory.below_write _ _ _ _ (chrIndex_lt c a i hr ha hi) (h.chrBelow.resolve_left ?_)
      rw [hr]; decide
    · exact h
  · exact h

theorem mmc1Mirroring_two (x : BitVec 5) : mmc1Mirroring x ≠ .fourScreen := by
  unfold mmc1Mirroring
  split <;> exact fun h => by cases h

theorem mmc1_shift_ne (s : BitVec 5) (b : Bool) (h : s ≠ 0) (h0 : s.getLsbD 0 = false) :
    (s >>> 1) ||| ((bit b).setWidth 5 <<< 4) ≠ (0 : BitVec 5) := by
  have : ∀ (s : BitVec 5) (b : Bool), s ≠ 0 → s.getLsbD 0 = false →
      (s >>> 1) ||| ((bit b).setWidth 5 <<< 4) ≠ (0 : BitVec 5) := by decide
  exact this s b h h0

theorem mmc1_load (m : Mmc1) (a : Word) (full : BitVec 5) :
    (m.load a full).shift = m.shift ∧ (m.load a full).lastWrite = m.lastWrite := by
  unfold Mmc1.load
  split <;> exact ⟨rfl, rfl⟩

/-- MMC1 keeps its marker bit (64_cartridge_mappers.md R591). -/
theorem mmc1_write_ok (a : Word) (v : Byte) (m : Mmc1) (h : (Mapper.mmc1 m).ok now) :
    (Mapper.mmc1 (m.write now a v)).ok now := by
  rw [mmc1_ok_iff] at h ⊢
  have hnow : ∀ t, some now = some t → t ≤ now := fun t ht => by cases ht; exact Nat.le_refl _
  unfold Mmc1.write
  dsimp only
  split
  · exact ⟨h.1, hnow⟩
  · split
    · exact ⟨(by decide : (0x10 : BitVec 5) ≠ 0), hnow⟩
    · split
      · rw [(mmc1_load _ _ _).1, (mmc1_load _ _ _).2]
        exact ⟨(by decide : (0x10 : BitVec 5) ≠ 0), hnow⟩
      · rename_i hb
        exact ⟨mmc1_shift_ne m.shift _ h.1 (by simpa using hb), hnow⟩

theorem mmc3_write_low (a : Word) (v : Byte) (m : Mmc3) : (m.write a v).a12LowAt = m.a12LowAt := by
  unfold Mmc3.write
  split <;> rfl

theorem CartRange.cpuWrite (a : Word) (v : Byte) (h : CartRange now c) : CartRange now (c.cpuWrite now a v) := by
  unfold Cart.cpuWrite
  split
  · exact h
  · split
    · exact ⟨h.rom, Memory.wf_write _ _ _ h.ram, Memory.below_write _ _ _ _ (by omega) h.ramBelow, h.chr, h.chrBelow,
        h.four, h.mapper⟩
    · have hk := h.mapper
      unfold Cart.writeRegister
      split
      · exact h
      · rename_i m hm
        rw [hm] at hk
        refine ⟨h.rom, h.ram, h.ramBelow, h.chr, h.chrBelow, ?_, mmc1_write_ok a v m hk⟩
        dsimp only
        split
        · exact .inl (mmc1Mirroring_two _)
        · exact h.four
      · exact ⟨h.rom, h.ram, h.ramBelow, h.chr, h.chrBelow, h.four, rfl⟩
      · exact ⟨h.rom, h.ram, h.ramBelow, h.chr, h.chrBelow, h.four, rfl⟩
      · rename_i m hm
        rw [hm] at hk
        refine ⟨h.rom, h.ram, h.ramBelow, h.chr, h.chrBelow, ?_, ?_⟩
        · dsimp only
          split
          · refine .inl ?_
            split <;> exact fun h => by cases h
          · exact h.four
        · simp only [Mapper.ok, mmc3_write_low] at hk ⊢
          exact hk

/-- A write leaves the header's mirroring as it is (64_cartridge_mappers.md R570). -/
theorem cpuWrite_header (a : Word) (v : Byte) (c : Cart) :
    (c.cpuWrite now a v).headerMirroring = c.headerMirroring := by
  unfold Cart.cpuWrite Cart.writeRegister
  repeat' split
  all_goals rfl

/-! ### What the address bus keeps, every dot keeps -/

/-- What the cartridge keeps whenever the picture unit drives an address, it keeps through every dot. -/
theorem tick_cart {Q : Cart → Prop} (hq : ∀ p c, Q c → Q (c.setPpuAddress now p)) (n : Nat) (p : Ppu) (c : Cart)
    (h : Q c) : Q (p.tick n now c).2 := by
  have bg : ∀ (ph : Nat) (p : Ppu) (c : Cart), Q c → Q (p.bgFetch now ph c).2 := fun ph p c h => by
    unfold Ppu.bgFetch
    split <;> first
      | exact h
      | exact hq _ _ h
  have sf : ∀ (p : Ppu) (c : Cart), Q c → Q (p.spriteFetchDot n now c).2 := fun p c h => by
    unfold Ppu.spriteFetchDot
    dsimp only
    split <;> first
      | exact h
      | exact hq _ _ h
  have rb : Q ((p.pixelDot).renderBg now c).2 := by
    unfold Ppu.renderBg
    split
    · exact bg _ _ _ h
    · exact h
  unfold Ppu.tick
  dsimp only
  split
  · unfold Ppu.renderDot
    dsimp only
    have h1 : Q (if p.pixelDot.dot = 337 ∨ p.pixelDot.dot = 339 then
        (Ppu.renderBg now p.pixelDot c).2.setPpuAddress now (ntAddr (Ppu.renderBg now p.pixelDot c).1.renderScroll.v)
        else (Ppu.renderBg now p.pixelDot c).2) := by
      split
      · exact hq _ _ rb
      · exact rb
    split
    · exact sf _ _ h1
    · exact h1
  · exact h

/-- The same for `IncrementV`. -/
theorem incrementV_cart {Q : Cart → Prop} (hq : ∀ p c, Q c → Q (c.setPpuAddress now p)) (p : Ppu) (c : Cart) (h : Q c) :
    Q (p.incrementV now c).2 := by
  unfold Ppu.incrementV
  dsimp only
  split
  · exact h
  · exact hq _ _ h

/-- The same for the effect of a $2007 read. -/
theorem readData_cart {Q : Cart → Prop} (hq : ∀ p c, Q c → Q (c.setPpuAddress now p)) (p : Ppu) (c : Cart) (h : Q c) :
    Q (p.readData now c).2 := by
  unfold Ppu.readData
  dsimp only
  exact incrementV_cart hq _ _ (hq _ _ h)

/-- The same for a $2006 write. -/
theorem writeAddr_cart {Q : Cart → Prop} (hq : ∀ p c, Q c → Q (c.setPpuAddress now p)) (d : Byte) (p : Ppu) (c : Cart)
    (h : Q c) : Q (p.writeAddr now d c).2 := by
  unfold Ppu.writeAddr
  dsimp only
  repeat' split
  · exact h
  · exact h
  · exact hq _ _ h
  · exact h

/-- The same for a $2007 write, which may also store in pattern RAM. -/
theorem writeData_cart {Q : Cart → Prop} (hq : ∀ p c, Q c → Q (c.setPpuAddress now p))
    (hw : ∀ a v c, a < 0x2000 → Q c → Q (c.chrWrite a v)) (d : Byte) (p : Ppu) (c : Cart) (h : Q c) :
    Q (p.writeData now d c).2 := by
  unfold Ppu.writeData
  dsimp only
  refine incrementV_cart hq _ _ ?_
  unfold Ppu.busWrite
  dsimp only
  repeat' split
  · rename_i ha; exact hw _ _ _ ha (hq _ _ h)
  · exact hq _ _ h
  · exact hq _ _ h

end Sys2Proof.Machine
end

