-- ==== Sys2Proof/Laws/Entry.lean ====
section
/-! SUPPORT. What the operations that leave the straight line do, said once: taking an interrupt, branching, and what a
register change of a state that kept its registers gives. -/

namespace Sys2Proof.Machine

/-! ### Register changes as `withCpu` -/

theorem SameMem.withCpu {s t : State} (c : Cpu) (h : SameMem s t) : SameMem s (t.withCpu c) :=
  fun sp n => (State.withCpu_byteAt ..).trans (h sp n)

theorem State.setPc_eq {u : State} {c : Cpu} (v : Word) (h : u.cpu = c) : u.setPc v = u.withCpu { c with pc := v } := by
  subst h; rfl

theorem State.setP_eq {u : State} {c : Cpu} (f : Flags) (h : u.cpu = c) : u.setP f = u.withCpu { c with p := f } := by
  subst h; rfl

theorem State.setS_eq {u : State} {c : Cpu} (v : Byte) (h : u.cpu = c) : u.setS v = u.withCpu { c with s := v } := by
  subst h; rfl

theorem SameMemBut.withCpu {s t : State} {cells : List (Space × Nat)} (c : Cpu) (h : SameMemBut cells s t) :
    SameMemBut cells s (t.withCpu c) :=
  fun sp n hn => (State.withCpu_byteAt ..).trans (h sp n hn)

/-! ### Three bytes on the stack -/

theorem sub_one_one (b : Byte) : b - 1 - 1 = b - 2 := by revert b; decide
theorem sub_two_one (b : Byte) : b - 2 - 1 = b - 3 := by revert b; decide
theorem add_one_one (b : Byte) : b + 1 + 1 = b + 2 := by revert b; decide
theorem add_two_one (b : Byte) : b + 2 + 1 = b + 3 := by revert b; decide

theorem stack_ne_one (b : Byte) : 256 + b.toNat ≠ 256 + (b - 1).toNat := by revert b; decide
theorem stack_ne_two (b : Byte) : 256 + b.toNat ≠ 256 + (b - 2).toNat := by revert b; decide
theorem stack_one_ne_two (b : Byte) : 256 + (b - 1).toNat ≠ 256 + (b - 2).toNat := by revert b; decide

/-- Two bytes pushed are read back. -/
theorem read_pushed_two (b u v : Byte) (m : Memory) (hw : m.wf) :
    let n := (m.write (256 + b.toNat) u).write (256 + (b - 1).toNat) v
    n.read (256 + b.toNat) = u ∧ n.read (256 + (b - 1).toNat) = v := by
  refine ⟨?_, Memory.read_write_same _ _ _ (Memory.wf_write _ _ _ hw)⟩
  rw [Memory.read_write_other _ _ _ _ (stack_ne_one b), Memory.read_write_same _ _ _ hw]

/-- Three bytes pushed are read back. -/
theorem read_pushed_three (b u v w : Byte) (m : Memory) (hw : m.wf) :
    let n := ((m.write (256 + b.toNat) u).write (256 + (b - 1).toNat) v).write (256 + (b - 2).toNat) w
    n.read (256 + b.toNat) = u ∧ n.read (256 + (b - 1).toNat) = v ∧ n.read (256 + (b - 2).toNat) = w := by
  have h1 := Memory.wf_write _ (256 + b.toNat) u hw
  have h2 := Memory.wf_write _ (256 + (b - 1).toNat) v h1
  refine ⟨?_, ?_, Memory.read_write_same _ _ _ h2⟩
  · rw [Memory.read_write_other _ _ _ _ (stack_ne_two b), Memory.read_write_other _ _ _ _ (stack_ne_one b),
      Memory.read_write_same _ _ _ hw]
  · rw [Memory.read_write_other _ _ _ _ (stack_one_ne_two b), Memory.read_write_same _ _ _ h1]

/-! ### Taking an interrupt -/

/-- Everything that `enterHandler` does, from a state that kept what `s0` has (60_exceptions.md R346, R347). -/
theorem enterHandler_spec (b : Bool) (s0 s : State) (hk : Kept s0 s) :
    let s2 := push (s0.p.pushed b) (push (lo8 s0.pc) (push (hi8 s0.pc) s))
    let vec : Word := if s2.nmiPending then 0xFFFA#16 else 0xFFFE#16
    let l := busRead vec { s2 with nmiPending := false, p := { s0.p with i := true } }
    let h := busRead (vec + 1) l.2
    let t := h.2.withCpu
      { s0.cpu with s := s0.s - 3, pc := h.1 ++ l.1, p := { s0.p with i := true } }
    enterHandler b s = t ∧
      SameMemBut [(.ram, 256 + s0.s.toNat), (.ram, 256 + (s0.s - 1).toNat), (.ram, 256 + (s0.s - 2).toNat)] s0 t ∧
      (s0.ram.wf →
        t.ram.read (256 + s0.s.toNat) = hi8 s0.pc ∧ t.ram.read (256 + (s0.s - 1).toNat) = lo8 s0.pc ∧
          t.ram.read (256 + (s0.s - 2).toNat) = s0.p.pushed b) := by
  have c1 := push_cpu (hi8 s0.pc) s
  have m1 := push_mem (hi8 s0.pc) s
  have r1 := push_ram (hi8 s0.pc) s
  rw [hk.cpu, hk.s] at c1
  rw [hk.s] at m1
  rw [hk.s, hk.ram] at r1
  have p1 := congrArg Cpu.pc c1
  have x1 := congrArg Cpu.s c1
  simp only [State.cpu] at p1 x1
  have c2 := push_cpu (lo8 s0.pc) (push (hi8 s0.pc) s)
  have m2 := push_mem (lo8 s0.pc) (push (hi8 s0.pc) s)
  have r2 := push_ram (lo8 s0.pc) (push (hi8 s0.pc) s)
  rw [c1, x1] at c2
  rw [x1] at m2
  rw [x1, r1] at r2
  have p2 := congrArg Cpu.p c2
  have x2 := congrArg Cpu.s c2
  simp only [State.cpu] at p2 x2
  have c3 := push_cpu (s0.p.pushed b) (push (lo8 s0.pc) (push (hi8 s0.pc) s))
  have m3 := push_mem (s0.p.pushed b) (push (lo8 s0.pc) (push (hi8 s0.pc) s))
  have r3 := push_ram (s0.p.pushed b) (push (lo8 s0.pc) (push (hi8 s0.pc) s))
  rw [c2, x2] at c3
  rw [x2, sub_one_one] at m3
  rw [x2, r2, sub_one_one] at r3
  dsimp only
  have mm := SameMemBut.before hk.byteAt (SameMemBut.trans m1 (SameMemBut.trans m2 m3))
  have e : enterHandler b s = (
    let s2 := push (s0.p.pushed b) (push (lo8 s0.pc) (push (hi8 s0.pc) s))
    let vec : Word := if s2.nmiPending then 0xFFFA#16 else 0xFFFE#16
    let l := busRead vec { s2 with nmiPending := false, p := { s0.p with i := true } }
    let h := busRead (vec + 1) l.2
    h.2.setPc (mk16 h.1 l.1)) := by
    simp only [enterHandler, hk.pc, p1, p2]
    rw [selectVector_eq]
    have : (push (s0.p.pushed b) (push (lo8 s0.pc) (push (hi8 s0.pc) s))).p = s0.p := congrArg Cpu.p c3
    simp only [State.setP, this]
  rw [e]
  dsimp only
  have c3' : State.cpu { push (s0.p.pushed b) (push (lo8 s0.pc) (push (hi8 s0.pc) s)) with nmiPending := false, p := { s0.p with i := true } } = { s0.cpu with s := s0.s - 3, p := { s0.p with i := true } } := by
    have : State.cpu { push (s0.p.pushed b) (push (lo8 s0.pc) (push (hi8 s0.pc) s)) with nmiPending := false, p := { s0.p with i := true } } = { (push (s0.p.pushed b) (push (lo8 s0.pc) (push (hi8 s0.pc) s))).cpu with p := { s0.p with i := true } } := rfl
    rw [this, c3, sub_one_one, sub_two_one]
  generalize hs : push (s0.p.pushed b) (push (lo8 s0.pc) (push (hi8 s0.pc) s)) = q at *
  have mq : SameMem q { q with nmiPending := false, p := { s0.p with i := true } } := fun sp n => by cases sp <;> rfl
  have rq : ({ q with nmiPending := false, p := { s0.p with i := true } } : State).ram = q.ram := rfl
  generalize ({ q with nmiPending := false, p := { s0.p with i := true } } : State) = q' at *
  have k1 := kept_busRead (if q.nmiPending = true then 0xFFFA#16 else 0xFFFE#16) q'
  generalize busRead (if q.nmiPending = true then 0xFFFA#16 else 0xFFFE#16) q' = l at *
  have k2 := k1.trans (kept_busRead ((if q.nmiPending = true then 0xFFFA#16 else 0xFFFE#16) + 1) l.2)
  generalize busRead ((if q.nmiPending = true then 0xFFFA#16 else 0xFFFE#16) + 1) l.2 = h at *
  refine ⟨State.setPc_eq _ (k2.cpu.trans c3'), mm.after (SameMem.withCpu _ (mq.trans k2.byteAt)), fun hw => ?_⟩
  have : (h.2.withCpu { s0.cpu with s := s0.s - 3, pc := h.1 ++ l.1, p := { s0.p with i := true } }).ram = q.ram := (k2.ram.trans rq)
  rw [this, r3]
  exact read_pushed_three _ _ _ _ _ hw

/-! ### Branching -/

/-- Everything that a branch does (43_control_flags.md R250). -/
theorem branch_spec (c : Bool) (b : Byte) (s : State) :
      let t := s.pc + b.signExtend 16
      let u :=
        if c then
          (if t.extractLsb' 8 8 = s.pc.extractLsb' 8 8 then (busReadWith true s.pc s).2
            else dummyRead (s.pc.extractLsb' 8 8 ++ t.extractLsb' 0 8) (dummyRead s.pc s)).withCpu { s.cpu with pc := t }
        else s
   branch c b s = .next u ∧ SameMem s u := by
  cases c
  · exact ⟨rfl, fun _ _ => rfl⟩
  · simp only [branch, branchTarget, sext16, if_true, takeBranch, hi8, lo8, mk16]
    have k1 := kept_busReadWith true s.pc s
    have k2 := kept_dummyRead s.pc s
    have k3 := k2.trans (kept_dummyRead (BitVec.extractLsb' 8 8 s.pc ++ BitVec.extractLsb' 0 8 (s.pc + b.signExtend 16)) _)
    rw [k2.pc]
    by_cases hc : BitVec.extractLsb' 8 8 (s.pc + BitVec.signExtend 16 b) = BitVec.extractLsb' 8 8 s.pc
    all_goals simp only [hc, if_true, if_false]
    · exact ⟨congrArg _ (State.setPc_eq _ k1.cpu), SameMem.withCpu _ k1.byteAt⟩
    · exact ⟨congrArg _ (State.setPc_eq _ k3.cpu), SameMem.withCpu _ k3.byteAt⟩

end Sys2Proof.Machine
end

