-- ==== Sys2Proof/Laws/Invariant.lean ====
section
/-! SUPPORT. `devicesOk` is kept by every part of a bus cycle, hence at every point of every step. -/

namespace Sys2Proof.Machine

/-- `devicesOk` as propositions. -/
structure DevicesRange (s : State) : Prop where
  ramWf : s.ram.wf
  ramBelow : s.ram.below 2048
  ppu : PpuRange s.cart.headerMirroring s.ppu
  apu : ApuRange s.apu
  cart : CartRange s.cycles s.cart
  pad1 : s.pad1.count ≤ 8
  pad2 : s.pad2.count ≤ 8
  delay : s.dmaDelay ≤ 3

theorem devicesRange_iff (s : State) : devicesOk s = true ↔ DevicesRange s := by
  simp only [devicesOk, Bool.and_eq_true, decide_eq_true_eq, ppuRange_iff, apuRange_iff, cartRange_iff]
  constructor
  · rintro ⟨⟨⟨⟨⟨⟨⟨a, b⟩, c⟩, d⟩, e⟩, f⟩, g⟩, h⟩; exact ⟨a, b, c, d, e, f, g, h⟩
  · rintro ⟨a, b, c, d, e, f, g, h⟩; exact ⟨⟨⟨⟨⟨⟨⟨a, b⟩, c⟩, d⟩, e⟩, f⟩, g⟩, h⟩

/-- The address bus of the picture unit keeps the cartridge's ranges and its header. -/
theorem cart_bus (now : Nat) (header : Mirroring) (p : BitVec 14) (c : Cart)
    (h : CartRange now c ∧ c.headerMirroring = header) :
    CartRange now (c.setPpuAddress now p) ∧ (c.setPpuAddress now p).headerMirroring = header := by
  refine ⟨h.1.setPpuAddress p, ?_⟩
  unfold Cart.setPpuAddress
  split <;> exact h.2

theorem cart_store (now : Nat) (header : Mirroring) (a : Nat) (v : Byte) (c : Cart) (ha : a < 0x2000)
    (h : CartRange now c ∧ c.headerMirroring = header) :
    CartRange now (c.chrWrite a v) ∧ (c.chrWrite a v).headerMirroring = header := by
  refine ⟨h.1.chrWrite a v ha, ?_⟩
  unfold Cart.chrWrite
  repeat' split
  all_goals exact h.2

theorem padShifted_count (p : Port) (pad : Pad) (s : State) (h : pad.count ≤ 8) : (padShifted p pad s).count ≤ 8 := by
  unfold padShifted
  split
  · rename_i hs
    unfold padNow
    rw [if_pos hs]
    exact Nat.zero_le _
  · split
    · dsimp only; omega
    · exact h

/-- Replacing the picture unit and the cartridge by ones in range. -/
theorem DevicesRange.video {s : State} (q : Ppu) (c : Cart) (n : Nat) (h : DevicesRange s)
    (hq : PpuRange s.cart.headerMirroring q) (hc : CartRange s.cycles c ∧ c.headerMirroring = s.cart.headerMirroring) :
    DevicesRange { s with ppu := q, cart := c, drawCount := n } :=
  ⟨h.ramWf, h.ramBelow, by rw [hc.2]; exact hq, h.apu, hc.1, h.pad1, h.pad2, h.delay⟩

theorem DevicesRange.tickPpu {s : State} (h : DevicesRange s) : DevicesRange (tickPpu s) :=
  DevicesRange.video _ _ s.drawCount h (h.ppu.tick _ _ _) (tick_cart (cart_bus s.cycles _) _ _ _ ⟨h.cart, rfl⟩)

theorem DevicesRange.bumpDraw {s : State} (h : DevicesRange s) : DevicesRange (bumpDraw s) :=
  ⟨h.ramWf, h.ramBelow, h.ppu, h.apu, h.cart, h.pad1, h.pad2, h.delay⟩

theorem DevicesRange.ppuRegEffect {s : State} (r : Nat) (h : DevicesRange s) : DevicesRange (ppuRegEffect r s) := by
  unfold Machine.ppuRegEffect
  split
  · exact ⟨h.ramWf, h.ramBelow, h.ppu.readStatus, h.apu, h.cart, h.pad1, h.pad2, h.delay⟩
  · exact h
  · exact DevicesRange.bumpDraw (DevicesRange.video _ _ s.drawCount h (h.ppu.readData _ _)
      (readData_cart (cart_bus s.cycles s.cart.headerMirroring) s.ppu s.cart ⟨h.cart, rfl⟩))
  · exact h.bumpDraw

theorem DevicesRange.deviceEffect {s : State} (addr : Word) (h : DevicesRange s) : DevicesRange (deviceEffect addr s) := by
  have p1 := padShifted_count .one s.pad1 s h.pad1
  have p2 := padShifted_count .two s.pad2 s h.pad2
  unfold Machine.deviceEffect
  repeat' split
  · exact h
  · exact h.ppuRegEffect _
  · exact ⟨h.ramWf, h.ramBelow, h.ppu, h.apu.readStatus, h.cart, h.pad1, h.pad2, h.delay⟩
  · exact ⟨h.ramWf, h.ramBelow, h.ppu, h.apu, h.cart, p1, h.pad2, h.delay⟩
  · exact ⟨h.ramWf, h.ramBelow, h.ppu, h.apu, h.cart, h.pad1, p2, h.delay⟩
  · exact h.bumpDraw
  · exact h
  · exact h.bumpDraw

theorem DevicesRange.ppuRegWrite {s : State} (r : Nat) (v : Byte) (h : DevicesRange s) :
    DevicesRange (ppuRegWrite r v s) := by
  unfold Machine.ppuRegWrite
  split
  · exact ⟨h.ramWf, h.ramBelow, h.ppu.writeCtrl _ _, h.apu, h.cart, h.pad1, h.pad2, h.delay⟩
  · exact ⟨h.ramWf, h.ramBelow, h.ppu.writeMask _ _, h.apu, h.cart, h.pad1, h.pad2, h.delay⟩
  · exact ⟨h.ramWf, h.ramBelow, h.ppu.writeOamAddr _, h.apu, h.cart, h.pad1, h.pad2, h.delay⟩
  · exact ⟨h.ramWf, h.ramBelow, h.ppu.writeOamData _, h.apu, h.cart, h.pad1, h.pad2, h.delay⟩
  · exact ⟨h.ramWf, h.ramBelow, h.ppu.writeScroll _ _, h.apu, h.cart, h.pad1, h.pad2, h.delay⟩
  · exact DevicesRange.video _ _ s.drawCount h (h.ppu.writeAddr _ _ _)
      (writeAddr_cart (cart_bus s.cycles s.cart.headerMirroring) v s.ppu s.cart ⟨h.cart, rfl⟩)
  · exact DevicesRange.video _ _ s.drawCount h (h.ppu.writeData _ _ _ h.cart.four)
      (writeData_cart (cart_bus s.cycles s.cart.headerMirroring) (cart_store s.cycles _) v s.ppu s.cart ⟨h.cart, rfl⟩)
  · exact h

theorem DevicesRange.deviceWrite {s : State} (addr : Word) (v : Byte) (h : DevicesRange s) :
    DevicesRange (deviceWrite addr v s) := by
  have channel : ∀ r, DevicesRange { s with apu := s.apu.writeChannel r v } := fun r =>
    ⟨h.ramWf, h.ramBelow, h.ppu, h.apu.writeChannel r v, h.cart, h.pad1, h.pad2, h.delay⟩
  unfold Machine.deviceWrite
  repeat' split
  · exact ⟨Memory.wf_write _ _ _ h.ramWf, Memory.below_write _ _ _ _ (Nat.mod_lt _ (by omega)) h.ramBelow, h.ppu, h.apu,
      h.cart, h.pad1, h.pad2, h.delay⟩
  · exact h.ppuRegWrite _ _
  · exact channel _
  · refine ⟨h.ramWf, h.ramBelow, h.ppu, h.apu.writeEnables v, h.cart, h.pad1, h.pad2, ?_⟩
    simp only [writeApuEnables]
    split
    · omega
    · exact h.delay
  · unfold writeStrobe
    split
    · exact ⟨h.ramWf, h.ramBelow, h.ppu, h.apu, h.cart, Nat.zero_le _, Nat.zero_le _, h.delay⟩
    · exact ⟨h.ramWf, h.ramBelow, h.ppu, h.apu, h.cart, h.pad1, h.pad2, h.delay⟩
  · exact ⟨h.ramWf, h.ramBelow, h.ppu, h.apu.writeFrameCounter _ _, h.cart, h.pad1, h.pad2, h.delay⟩
  · exact h
  · refine ⟨h.ramWf, h.ramBelow, ?_, h.apu, h.cart.cpuWrite _ _, h.pad1, h.pad2, h.delay⟩
    dsimp only
    rw [cpuWrite_header]
    exact h.ppu

theorem DevicesRange.dmcDeliver {s : State} (v : Byte) (h : DevicesRange s) : DevicesRange (dmcDeliver v s) := by
  refine ⟨h.ramWf, h.ramBelow, h.ppu, ?_, h.cart, h.pad1, h.pad2, h.delay⟩
  have k := h.apu
  exact ⟨k.p1, k.p2, k.tri, k.noise, k.lfsr, k.period, k.delay, k.dmc.deliver v _⟩

/-- Every part of a bus cycle keeps the ranges. -/
theorem devicesRange_closed : DeviceClosed DevicesRange where
  start _ h := ⟨h.ramWf, h.ramBelow, h.ppu, h.apu.tick, h.cart.later, h.pad1, h.pad2, h.delay⟩
  dot _ h := h.tickPpu
  capture _ h := ⟨h.ramWf, h.ramBelow, h.ppu, h.apu, h.cart, h.pad1, h.pad2, h.delay⟩
  poll _ h := ⟨h.ramWf, h.ramBelow, h.ppu, h.apu, h.cart, h.pad1, h.pad2, h.delay⟩
  down _ h := ⟨h.ramWf, h.ramBelow, h.ppu, h.apu, h.cart, h.pad1, h.pad2, Nat.le_trans (Nat.sub_le _ _) h.delay⟩
  effect addr _ h := h.deviceEffect addr
  store addr v _ h := h.deviceWrite addr v
  deliver v _ h := DevicesRange.dmcDeliver v ⟨h.ramWf, h.ramBelow, h.ppu, h.apu, h.cart, h.pad1, h.pad2, h.delay⟩
  regs _ _ _ h := ⟨h.ramWf, h.ramBelow, h.ppu, h.apu, h.cart, h.pad1, h.pad2, h.delay⟩
  nmi _ h := ⟨h.ramWf, h.ramBelow, h.ppu, h.apu, h.cart, h.pad1, h.pad2, h.delay⟩

/-- The NMI line as the CPU last saw it is the picture unit's output, whatever bus cycles and registers do. -/
theorem lineSeen_closed : Closed LineSeen :=
  ⟨fun _ _ _ _ => lineSeen_read _ _ _, fun _ _ _ _ => lineSeen_write _ _ _, fun _ _ _ h => h, fun _ h => h⟩

/-- The invariant is its two parts. -/
theorem runInv_iff (s : State) : runInv s = true ↔ DevicesRange s ∧ LineSeen s := by
  unfold runInv LineSeen
  rw [Bool.and_eq_true, devicesRange_iff, beq_iff_eq]

end Sys2Proof.Machine
end

