-- ==== Sys2Proof/Laws/Fixed.lean ====
section
/-! SUPPORT. What no step changes: the ROM arrays, header and variant of the cartridge and the open parameters; and that
the cycle count only grows. -/

namespace Sys2Proof.Machine

/-- What no step changes in a cartridge: its ROM arrays, header fields and variant (64_cartridge_mappers.md R572, R575). -/
structure Cart.Fixed (s t : Cart) : Prop where
  rom : t.prgRom = s.prgRom
  b16 : t.prgBanks16 = s.prgBanks16
  b8 : t.chrBanks8 = s.chrBanks8
  bat : t.battery = s.battery
  hdr : t.headerMirroring = s.headerMirroring
  var : t.mapper.variant = s.mapper.variant
  chr : s.chrBanks8 ≠ 0 → t.chr = s.chr

/-- The picture unit's address bus changes none of it. -/
theorem fixed_bus (now : Nat) (s : Cart) (p : BitVec 14) (c : Cart) (h : Cart.Fixed s c) :
    Cart.Fixed s (c.setPpuAddress now p) := by
  unfold Cart.setPpuAddress
  split
  · rename_i m hm
    have := h.var
    rw [hm] at this
    exact ⟨h.rom, h.b16, h.b8, h.bat, h.hdr, this, h.chr⟩
  · exact h

/-- A store to pattern RAM changes none of it. -/
theorem fixed_store (s : Cart) (a : Nat) (v : Byte) (c : Cart) (_ : a < 0x2000) (h : Cart.Fixed s c) :
    Cart.Fixed s (c.chrWrite a v) := by
  unfold Cart.chrWrite
  repeat' split
  · rename_i hr _ _ _
    refine ⟨h.rom, h.b16, h.b8, h.bat, h.hdr, h.var, fun hn => ?_⟩
    refine absurd ?_ hn
    rw [← h.b8]
    simpa [Cart.chrIsRam] using hr
  · exact h
  · exact h

/-- A CPU write changes none of it. -/
theorem fixed_cpuWrite (now : Nat) (a : Word) (v : Byte) (s c : Cart) (h : Cart.Fixed s c) : Cart.Fixed s (c.cpuWrite now a v) := by
  have hv := h.var
  have hb : ∀ m, m.variant = c.mapper.variant → ∀ mi,
      Cart.Fixed s { c with mapper := m, mirroring := mi } := fun m hm mi =>
    ⟨h.rom, h.b16, h.b8, h.bat, h.hdr, hm.trans hv, h.chr⟩
  unfold Cart.cpuWrite
  split
  · exact h
  · split
    · exact ⟨h.rom, h.b16, h.b8, h.bat, h.hdr, hv, h.chr⟩
    · unfold Cart.writeRegister
      split
      · exact h
      all_goals
        rename_i hm
        exact hb _ (by rw [hm]; rfl) _

/-- From `s` on: the same cartridge and parameters, and at least `n` bus cycles counted. -/
def Since (s : State) (n : Nat) (t : State) : Prop :=
  Cart.Fixed s.cart t.cart ∧ t.params = s.params ∧ n ≤ t.cycles

/-- Every part of a bus cycle keeps that. -/
theorem since_closed (s : State) (n : Nat) : DeviceClosed (Since s n) where
  start _ h := ⟨h.1, h.2.1, Nat.le_succ_of_le h.2.2⟩
  dot t h := ⟨tick_cart (fixed_bus t.cycles s.cart) _ _ _ h.1, h.2.1, h.2.2⟩
  capture _ h := h
  poll _ h := h
  down _ h := h
  effect addr t h := by
    unfold deviceEffect
    repeat' split
    all_goals first | exact h | skip
    unfold ppuRegEffect
    repeat' split
    all_goals first | exact h | skip
    exact ⟨readData_cart (fixed_bus t.cycles s.cart) _ _ h.1, h.2.1, h.2.2⟩
  store addr v t h := by
    unfold deviceWrite
    have : ∀ r, Since s n { t with apu := t.apu.writeChannel r v } := fun r => h
    repeat' split
    rotate_left 2
    · exact this _
    all_goals first | exact h | skip
    rotate_right
    · unfold ppuRegWrite
      repeat' split
      all_goals first | exact h | skip
      · exact ⟨writeAddr_cart (fixed_bus t.cycles s.cart) _ _ _ h.1, h.2.1, h.2.2⟩
      · exact ⟨writeData_cart (fixed_bus t.cycles s.cart) (fixed_store s.cart) _ _ _ h.1, h.2.1, h.2.2⟩
    · unfold writeStrobe; split <;> exact h
    · exact ⟨fixed_cpuWrite _ _ _ _ _ h.1, h.2.1, h.2.2⟩
  deliver _ _ h := h
  regs _ _ hp h := ⟨h.1, hp.trans h.2.1, h.2.2⟩
  nmi _ h := h

/-- It holds of the state itself. -/
theorem since_self (s : State) : Since s s.cycles s :=
  ⟨⟨rfl, rfl, rfl, rfl, rfl, rfl, fun _ => rfl⟩, rfl, Nat.le_refl _⟩

/-- A read bus cycle counts at least itself. -/
theorem busRead_later (addr : Word) (s : State) : s.cycles < (busRead addr s).2.cycles := by
  have h0 : Since (cycleStart s) (s.cycles+1) (cycleStart s) := since_self _
  refine ((since_closed (cycleStart s) (s.cycles+1)).finishRead false addr _ ?_).2.2
  unfold serviceDmc
  repeat' split
  · exact (since_closed _ _).down _ h0
  · exact (since_closed _ _).dmcStall _ _ h0
  · exact h0

end Sys2Proof.Machine
end

