-- ==== Sys2Proof/Laws/PerInstr.lean ====
section
/-! SUPPORT. A fact about the encoding of every instruction, one lemma per constructor: it is well formed, and its
encoding is its opcode, by the number of spec/opcode_table.json, followed by the operand bytes it carries
(30_encoding.md R110, R115). -/

namespace Sys2Proof.Laws.Encoding

/-- The instruction is well formed and its encoding is its opcode followed by its operands, at most two bytes. -/
def Statement (i : Instr) : Prop :=
  i.wf = true ∧ encode i = i.opcode :: i.operands ∧ i.operands.length ≤ 2

theorem oraIzx (b : Byte) : Statement (.oraIzx b) := ⟨rfl, rfl, Nat.le_succ _⟩
theorem sloIzx (b : Byte) : Statement (.sloIzx b) := ⟨rfl, rfl, Nat.le_succ _⟩
theorem nopZp04 (b : Byte) : Statement (.nopZp04 b) := ⟨rfl, rfl, Nat.le_succ _⟩
theorem oraZp (b : Byte) : Statement (.oraZp b) := ⟨rfl, rfl, Nat.le_succ _⟩
theorem aslZp (b : Byte) : Statement (.aslZp b) := ⟨rfl, rfl, Nat.le_succ _⟩
theorem sloZp (b : Byte) : Statement (.sloZp b) := ⟨rfl, rfl, Nat.le_succ _⟩
theorem oraImm (b : Byte) : Statement (.oraImm b) := ⟨rfl, rfl, Nat.le_succ _⟩
theorem ancImm0B (b : Byte) : Statement (.ancImm0B b) := ⟨rfl, rfl, Nat.le_succ _⟩
theorem nopAbs (lo hi : Byte) : Statement (.nopAbs lo hi) := ⟨rfl, rfl, Nat.le_refl _⟩
theorem oraAbs (lo hi : Byte) : Statement (.oraAbs lo hi) := ⟨rfl, rfl, Nat.le_refl _⟩
theorem aslAbs (lo hi : Byte) : Statement (.aslAbs lo hi) := ⟨rfl, rfl, Nat.le_refl _⟩
theorem sloAbs (lo hi : Byte) : Statement (.sloAbs lo hi) := ⟨rfl, rfl, Nat.le_refl _⟩
theorem bpl (b : Byte) : Statement (.bpl b) := ⟨rfl, rfl, Nat.le_succ _⟩
theorem oraIzy (b : Byte) : Statement (.oraIzy b) := ⟨rfl, rfl, Nat.le_succ _⟩
theorem sloIzy (b : Byte) : Statement (.sloIzy b) := ⟨rfl, rfl, Nat.le_succ _⟩
theorem nopZpx14 (b : Byte) : Statement (.nopZpx14 b) := ⟨rfl, rfl, Nat.le_succ _⟩
theorem oraZpx (b : Byte) : Statement (.oraZpx b) := ⟨rfl, rfl, Nat.le_succ _⟩
theorem aslZpx (b : Byte) : Statement (.aslZpx b) := ⟨rfl, rfl, Nat.le_succ _⟩
theorem sloZpx (b : Byte) : Statement (.sloZpx b) := ⟨rfl, rfl, Nat.le_succ _⟩
theorem oraAby (lo hi : Byte) : Statement (.oraAby lo hi) := ⟨rfl, rfl, Nat.le_refl _⟩
theorem sloAby (lo hi : Byte) : Statement (.sloAby lo hi) := ⟨rfl, rfl, Nat.le_refl _⟩
theorem nopAbx1C (lo hi : Byte) : Statement (.nopAbx1C lo hi) := ⟨rfl, rfl, Nat.le_refl _⟩
theorem oraAbx (lo hi : Byte) : Statement (.oraAbx lo hi) := ⟨rfl, rfl, Nat.le_refl _⟩
theorem aslAbx (lo hi : Byte) : Statement (.aslAbx lo hi) := ⟨rfl, rfl, Nat.le_refl _⟩
theorem sloAbx (lo hi : Byte) : Statement (.sloAbx lo hi) := ⟨rfl, rfl, Nat.le_refl _⟩
theorem jsr (target : Word) : Statement (.jsr target) := ⟨rfl, rfl, Nat.le_refl _⟩
theorem andIzx (b : Byte) : Statement (.andIzx b) := ⟨rfl, rfl, Nat.le_succ _⟩
theorem rlaIzx (b : Byte) : Statement (.rlaIzx b) := ⟨rfl, rfl, Nat.le_succ _⟩
theorem bitZp (b : Byte) : Statement (.bitZp b) := ⟨rfl, rfl, Nat.le_succ _⟩
theorem andZp (b : Byte) : Statement (.andZp b) := ⟨rfl, rfl, Nat.le_succ _⟩
theorem rolZp (b : Byte) : Statement (.rolZp b) := ⟨rfl, rfl, Nat.le_succ _⟩
theorem rlaZp (b : Byte) : Statement (.rlaZp b) := ⟨rfl, rfl, Nat.le_succ _⟩
theorem andImm (b : Byte) : Statement (.andImm b) := ⟨rfl, rfl, Nat.le_succ _⟩
theorem ancImm2B (b : Byte) : Statement (.ancImm2B b) := ⟨rfl, rfl, Nat.le_succ _⟩
theorem bitAbs (lo hi : Byte) : Statement (.bitAbs lo hi) := ⟨rfl, rfl, Nat.le_refl _⟩
theorem andAbs (lo hi : Byte) : Statement (.andAbs lo hi) := ⟨rfl, rfl, Nat.le_refl _⟩
theorem rolAbs (lo hi : Byte) : Statement (.rolAbs lo hi) := ⟨rfl, rfl, Nat.le_refl _⟩
theorem rlaAbs (lo hi : Byte) : Statement (.rlaAbs lo hi) := ⟨rfl, rfl, Nat.le_refl _⟩
theorem bmi (b : Byte) : Statement (.bmi b) := ⟨rfl, rfl, Nat.le_succ _⟩
theorem andIzy (b : Byte) : Statement (.andIzy b) := ⟨rfl, rfl, Nat.le_succ _⟩
theorem rlaIzy (b : Byte) : Statement (.rlaIzy b) := ⟨rfl, rfl, Nat.le_succ _⟩
theorem nopZpx34 (b : Byte) : Statement (.nopZpx34 b) := ⟨rfl, rfl, Nat.le_succ _⟩
theorem andZpx (b : Byte) : Statement (.andZpx b) := ⟨rfl, rfl, Nat.le_succ _⟩
theorem rolZpx (b : Byte) : Statement (.rolZpx b) := ⟨rfl, rfl, Nat.le_succ _⟩
theorem rlaZpx (b : Byte) : Statement (.rlaZpx b) := ⟨rfl, rfl, Nat.le_succ _⟩
theorem andAby (lo hi : Byte) : Statement (.andAby lo hi) := ⟨rfl, rfl, Nat.le_refl _⟩
theorem rlaAby (lo hi : Byte) : Statement (.rlaAby lo hi) := ⟨rfl, rfl, Nat.le_refl _⟩
theorem nopAbx3C (lo hi : Byte) : Statement (.nopAbx3C lo hi) := ⟨rfl, rfl, Nat.le_refl _⟩
theorem andAbx (lo hi : Byte) : Statement (.andAbx lo hi) := ⟨rfl, rfl, Nat.le_refl _⟩
theorem rolAbx (lo hi : Byte) : Statement (.rolAbx lo hi) := ⟨rfl, rfl, Nat.le_refl _⟩
theorem rlaAbx (lo hi : Byte) : Statement (.rlaAbx lo hi) := ⟨rfl, rfl, Nat.le_refl _⟩
theorem eorIzx (b : Byte) : Statement (.eorIzx b) := ⟨rfl, rfl, Nat.le_succ _⟩
theorem sreIzx (b : Byte) : Statement (.sreIzx b) := ⟨rfl, rfl, Nat.le_succ _⟩
theorem nopZp44 (b : Byte) : Statement (.nopZp44 b) := ⟨rfl, rfl, Nat.le_succ _⟩
theorem eorZp (b : Byte) : Statement (.eorZp b) := ⟨rfl, rfl, Nat.le_succ _⟩
theorem lsrZp (b : Byte) : Statement (.lsrZp b) := ⟨rfl, rfl, Nat.le_succ _⟩
theorem sreZp (b : Byte) : Statement (.sreZp b) := ⟨rfl, rfl, Nat.le_succ _⟩
theorem eorImm (b : Byte) : Statement (.eorImm b) := ⟨rfl, rfl, Nat.le_succ _⟩
theorem alr (b : Byte) : Statement (.alr b) := ⟨rfl, rfl, Nat.le_succ _⟩
theorem jmpAbs (lo hi : Byte) : Statement (.jmpAbs lo hi) := ⟨rfl, rfl, Nat.le_refl _⟩
theorem eorAbs (lo hi : Byte) : Statement (.eorAbs lo hi) := ⟨rfl, rfl, Nat.le_refl _⟩
theorem lsrAbs (lo hi : Byte) : Statement (.lsrAbs lo hi) := ⟨rfl, rfl, Nat.le_refl _⟩
theorem sreAbs (lo hi : Byte) : Statement (.sreAbs lo hi) := ⟨rfl, rfl, Nat.le_refl _⟩
theorem bvc (b : Byte) : Statement (.bvc b) := ⟨rfl, rfl, Nat.le_succ _⟩
theorem eorIzy (b : Byte) : Statement (.eorIzy b) := ⟨rfl, rfl, Nat.le_succ _⟩
theorem sreIzy (b : Byte) : Statement (.sreIzy b) := ⟨rfl, rfl, Nat.le_succ _⟩
theorem nopZpx54 (b : Byte) : Statement (.nopZpx54 b) := ⟨rfl, rfl, Nat.le_succ _⟩
theorem eorZpx (b : Byte) : Statement (.eorZpx b) := ⟨rfl, rfl, Nat.le_succ _⟩
theorem lsrZpx (b : Byte) : Statement (.lsrZpx b) := ⟨rfl, rfl, Nat.le_succ _⟩
theorem sreZpx (b : Byte) : Statement (.sreZpx b) := ⟨rfl, rfl, Nat.le_succ _⟩
theorem eorAby (lo hi : Byte) : Statement (.eorAby lo hi) := ⟨rfl, rfl, Nat.le_refl _⟩
theorem sreAby (lo hi : Byte) : Statement (.sreAby lo hi) := ⟨rfl, rfl, Nat.le_refl _⟩
theorem nopAbx5C (lo hi : Byte) : Statement (.nopAbx5C lo hi) := ⟨rfl, rfl, Nat.le_refl _⟩
theorem eorAbx (lo hi : Byte) : Statement (.eorAbx lo hi) := ⟨rfl, rfl, Nat.le_refl _⟩
theorem lsrAbx (lo hi : Byte) : Statement (.lsrAbx lo hi) := ⟨rfl, rfl, Nat.le_refl _⟩
theorem sreAbx (lo hi : Byte) : Statement (.sreAbx lo hi) := ⟨rfl, rfl, Nat.le_refl _⟩
theorem adcIzx (b : Byte) : Statement (.adcIzx b) := ⟨rfl, rfl, Nat.le_succ _⟩
theorem rraIzx (b : Byte) : Statement (.rraIzx b) := ⟨rfl, rfl, Nat.le_succ _⟩
theorem nopZp64 (b : Byte) : Statement (.nopZp64 b) := ⟨rfl, rfl, Nat.le_succ _⟩
theorem adcZp (b : Byte) : Statement (.adcZp b) := ⟨rfl, rfl, Nat.le_succ _⟩
theorem rorZp (b : Byte) : Statement (.rorZp b) := ⟨rfl, rfl, Nat.le_succ _⟩
theorem rraZp (b : Byte) : Statement (.rraZp b) := ⟨rfl, rfl, Nat.le_succ _⟩
theorem adcImm (b : Byte) : Statement (.adcImm b) := ⟨rfl, rfl, Nat.le_succ _⟩
theorem arr (b : Byte) : Statement (.arr b) := ⟨rfl, rfl, Nat.le_succ _⟩
theorem jmpInd (lo hi : Byte) : Statement (.jmpInd lo hi) := ⟨rfl, rfl, Nat.le_refl _⟩
theorem adcAbs (lo hi : Byte) : Statement (.adcAbs lo hi) := ⟨rfl, rfl, Nat.le_refl _⟩
theorem rorAbs (lo hi : Byte) : Statement (.rorAbs lo hi) := ⟨rfl, rfl, Nat.le_refl _⟩
theorem rraAbs (lo hi : Byte) : Statement (.rraAbs lo hi) := ⟨rfl, rfl, Nat.le_refl _⟩
theorem bvs (b : Byte) : Statement (.bvs b) := ⟨rfl, rfl, Nat.le_succ _⟩
theorem adcIzy (b : Byte) : Statement (.adcIzy b) := ⟨rfl, rfl, Nat.le_succ _⟩
theorem rraIzy (b : Byte) : Statement (.rraIzy b) := ⟨rfl, rfl, Nat.le_succ _⟩
theorem nopZpx74 (b : Byte) : Statement (.nopZpx74 b) := ⟨rfl, rfl, Nat.le_succ _⟩
theorem adcZpx (b : Byte) : Statement (.adcZpx b) := ⟨rfl, rfl, Nat.le_succ _⟩
theorem rorZpx (b : Byte) : Statement (.rorZpx b) := ⟨rfl, rfl, Nat.le_succ _⟩
theorem rraZpx (b : Byte) : Statement (.rraZpx b) := ⟨rfl, rfl, Nat.le_succ _⟩
theorem adcAby (lo hi : Byte) : Statement (.adcAby lo hi) := ⟨rfl, rfl, Nat.le_refl _⟩
theorem rraAby (lo hi : Byte) : Statement (.rraAby lo hi) := ⟨rfl, rfl, Nat.le_refl _⟩
theorem nopAbx7C (lo hi : Byte) : Statement (.nopAbx7C lo hi) := ⟨rfl, rfl, Nat.le_refl _⟩
theorem adcAbx (lo hi : Byte) : Statement (.adcAbx lo hi) := ⟨rfl, rfl, Nat.le_refl _⟩
theorem rorAbx (lo hi : Byte) : Statement (.rorAbx lo hi) := ⟨rfl, rfl, Nat.le_refl _⟩
theorem rraAbx (lo hi : Byte) : Statement (.rraAbx lo hi) := ⟨rfl, rfl, Nat.le_refl _⟩
theorem nopImm80 (b : Byte) : Statement (.nopImm80 b) := ⟨rfl, rfl, Nat.le_succ _⟩
theorem staIzx (b : Byte) : Statement (.staIzx b) := ⟨rfl, rfl, Nat.le_succ _⟩
theorem nopImm82 (b : Byte) : Statement (.nopImm82 b) := ⟨rfl, rfl, Nat.le_succ _⟩
theorem saxIzx (b : Byte) : Statement (.saxIzx b) := ⟨rfl, rfl, Nat.le_succ _⟩
theorem styZp (b : Byte) : Statement (.styZp b) := ⟨rfl, rfl, Nat.le_succ _⟩
theorem staZp (b : Byte) : Statement (.staZp b) := ⟨rfl, rfl, Nat.le_succ _⟩
theorem stxZp (b : Byte) : Statement (.stxZp b) := ⟨rfl, rfl, Nat.le_succ _⟩
theorem saxZp (b : Byte) : Statement (.saxZp b) := ⟨rfl, rfl, Nat.le_succ _⟩
theorem nopImm89 (b : Byte) : Statement (.nopImm89 b) := ⟨rfl, rfl, Nat.le_succ _⟩
theorem ane (b : Byte) : Statement (.ane b) := ⟨rfl, rfl, Nat.le_succ _⟩
theorem styAbs (lo hi : Byte) : Statement (.styAbs lo hi) := ⟨rfl, rfl, Nat.le_refl _⟩
theorem staAbs (lo hi : Byte) : Statement (.staAbs lo hi) := ⟨rfl, rfl, Nat.le_refl _⟩
theorem stxAbs (lo hi : Byte) : Statement (.stxAbs lo hi) := ⟨rfl, rfl, Nat.le_refl _⟩
theorem saxAbs (lo hi : Byte) : Statement (.saxAbs lo hi) := ⟨rfl, rfl, Nat.le_refl _⟩
theorem bcc (b : Byte) : Statement (.bcc b) := ⟨rfl, rfl, Nat.le_succ _⟩
theorem staIzy (b : Byte) : Statement (.staIzy b) := ⟨rfl, rfl, Nat.le_succ _⟩
theorem shaIzy (b : Byte) : Statement (.shaIzy b) := ⟨rfl, rfl, Nat.le_succ _⟩
theorem styZpx (b : Byte) : Statement (.styZpx b) := ⟨rfl, rfl, Nat.le_succ _⟩
theorem staZpx (b : Byte) : Statement (.staZpx b) := ⟨rfl, rfl, Nat.le_succ _⟩
theorem stxZpy (b : Byte) : Statement (.stxZpy b) := ⟨rfl, rfl, Nat.le_succ _⟩
theorem saxZpy (b : Byte) : Statement (.saxZpy b) := ⟨rfl, rfl, Nat.le_succ _⟩
theorem staAby (lo hi : Byte) : Statement (.staAby lo hi) := ⟨rfl, rfl, Nat.le_refl _⟩
theorem tas (lo hi : Byte) : Statement (.tas lo hi) := ⟨rfl, rfl, Nat.le_refl _⟩
theorem shy (lo hi : Byte) : Statement (.shy lo hi) := ⟨rfl, rfl, Nat.le_refl _⟩
theorem staAbx (lo hi : Byte) : Statement (.staAbx lo hi) := ⟨rfl, rfl, Nat.le_refl _⟩
theorem shx (lo hi : Byte) : Statement (.shx lo hi) := ⟨rfl, rfl, Nat.le_refl _⟩
theorem shaAby (lo hi : Byte) : Statement (.shaAby lo hi) := ⟨rfl, rfl, Nat.le_refl _⟩
theorem ldyImm (b : Byte) : Statement (.ldyImm b) := ⟨rfl, rfl, Nat.le_succ _⟩
theorem ldaIzx (b : Byte) : Statement (.ldaIzx b) := ⟨rfl, rfl, Nat.le_succ _⟩
theorem ldxImm (b : Byte) : Statement (.ldxImm b) := ⟨rfl, rfl, Nat.le_succ _⟩
theorem laxIzx (b : Byte) : Statement (.laxIzx b) := ⟨rfl, rfl, Nat.le_succ _⟩
theorem ldyZp (b : Byte) : Statement (.ldyZp b) := ⟨rfl, rfl, Nat.le_succ _⟩
theorem ldaZp (b : Byte) : Statement (.ldaZp b) := ⟨rfl, rfl, Nat.le_succ _⟩
theorem ldxZp (b : Byte) : Statement (.ldxZp b) := ⟨rfl, rfl, Nat.le_succ _⟩
theorem laxZp (b : Byte) : Statement (.laxZp b) := ⟨rfl, rfl, Nat.le_succ _⟩
theorem ldaImm (b : Byte) : Statement (.ldaImm b) := ⟨rfl, rfl, Nat.le_succ _⟩
theorem lxa (b : Byte) : Statement (.lxa b) := ⟨rfl, rfl, Nat.le_succ _⟩
theorem ldyAbs (lo hi : Byte) : Statement (.ldyAbs lo hi) := ⟨rfl, rfl, Nat.le_refl _⟩
theorem ldaAbs (lo hi : Byte) : Statement (.ldaAbs lo hi) := ⟨rfl, rfl, Nat.le_refl _⟩
theorem ldxAbs (lo hi : Byte) : Statement (.ldxAbs lo hi) := ⟨rfl, rfl, Nat.le_refl _⟩
theorem laxAbs (lo hi : Byte) : Statement (.laxAbs lo hi) := ⟨rfl, rfl, Nat.le_refl _⟩
theorem bcs (b : Byte) : Statement (.bcs b) := ⟨rfl, rfl, Nat.le_succ _⟩
theorem ldaIzy (b : Byte) : Statement (.ldaIzy b) := ⟨rfl, rfl, Nat.le_succ _⟩
theorem laxIzy (b : Byte) : Statement (.laxIzy b) := ⟨rfl, rfl, Nat.le_succ _⟩
theorem ldyZpx (b : Byte) : Statement (.ldyZpx b) := ⟨rfl, rfl, Nat.le_succ _⟩
theorem ldaZpx (b : Byte) : Statement (.ldaZpx b) := ⟨rfl, rfl, Nat.le_succ _⟩
theorem ldxZpy (b : Byte) : Statement (.ldxZpy b) := ⟨rfl, rfl, Nat.le_succ _⟩
theorem laxZpy (b : Byte) : Statement (.laxZpy b) := ⟨rfl, rfl, Nat.le_succ _⟩
theorem ldaAby (lo hi : Byte) : Statement (.ldaAby lo hi) := ⟨rfl, rfl, Nat.le_refl _⟩
theorem las (lo hi : Byte) : Statement (.las lo hi) := ⟨rfl, rfl, Nat.le_refl _⟩
theorem ldyAbx (lo hi : Byte) : Statement (.ldyAbx lo hi) := ⟨rfl, rfl, Nat.le_refl _⟩
theorem ldaAbx (lo hi : Byte) : Statement (.ldaAbx lo hi) := ⟨rfl, rfl, Nat.le_refl _⟩
theorem ldxAby (lo hi : Byte) : Statement (.ldxAby lo hi) := ⟨rfl, rfl, Nat.le_refl _⟩
theorem laxAby (lo hi : Byte) : Statement (.laxAby lo hi) := ⟨rfl, rfl, Nat.le_refl _⟩
theorem cpyImm (b : Byte) : Statement (.cpyImm b) := ⟨rfl, rfl, Nat.le_succ _⟩
theorem cmpIzx (b : Byte) : Statement (.cmpIzx b) := ⟨rfl, rfl, Nat.le_succ _⟩
theorem nopImmC2 (b : Byte) : Statement (.nopImmC2 b) := ⟨rfl, rfl, Nat.le_succ _⟩
theorem dcpIzx (b : Byte) : Statement (.dcpIzx b) := ⟨rfl, rfl, Nat.le_succ _⟩
theorem cpyZp (b : Byte) : Statement (.cpyZp b) := ⟨rfl, rfl, Nat.le_succ _⟩
theorem cmpZp (b : Byte) : Statement (.cmpZp b) := ⟨rfl, rfl, Nat.le_succ _⟩
theorem decZp (b : Byte) : Statement (.decZp b) := ⟨rfl, rfl, Nat.le_succ _⟩
theorem dcpZp (b : Byte) : Statement (.dcpZp b) := ⟨rfl, rfl, Nat.le_succ _⟩
theorem cmpImm (b : Byte) : Statement (.cmpImm b) := ⟨rfl, rfl, Nat.le_succ _⟩
theorem axs (b : Byte) : Statement (.axs b) := ⟨rfl, rfl, Nat.le_succ _⟩
theorem cpyAbs (lo hi : Byte) : Statement (.cpyAbs lo hi) := ⟨rfl, rfl, Nat.le_refl _⟩
theorem cmpAbs (lo hi : Byte) : Statement (.cmpAbs lo hi) := ⟨rfl, rfl, Nat.le_refl _⟩
theorem decAbs (lo hi : Byte) : Statement (.decAbs lo hi) := ⟨rfl, rfl, Nat.le_refl _⟩
theorem dcpAbs (lo hi : Byte) : Statement (.dcpAbs lo hi) := ⟨rfl, rfl, Nat.le_refl _⟩
theorem bne (b : Byte) : Statement (.bne b) := ⟨rfl, rfl, Nat.le_succ _⟩
theorem cmpIzy (b : Byte) : Statement (.cmpIzy b) := ⟨rfl, rfl, Nat.le_succ _⟩
theorem dcpIzy (b : Byte) : Statement (.dcpIzy b) := ⟨rfl, rfl, Nat.le_succ _⟩
theorem nopZpxD4 (b : Byte) : Statement (.nopZpxD4 b) := ⟨rfl, rfl, Nat.le_succ _⟩
theorem cmpZpx (b : Byte) : Statement (.cmpZpx b) := ⟨rfl, rfl, Nat.le_succ _⟩
theorem decZpx (b : Byte) : Statement (.decZpx b) := ⟨rfl, rfl, Nat.le_succ _⟩
theorem dcpZpx (b : Byte) : Statement (.dcpZpx b) := ⟨rfl, rfl, Nat.le_succ _⟩
theorem cmpAby (lo hi : Byte) : Statement (.cmpAby lo hi) := ⟨rfl, rfl, Nat.le_refl _⟩
theorem dcpAby (lo hi : Byte) : Statement (.dcpAby lo hi) := ⟨rfl, rfl, Nat.le_refl _⟩
theorem nopAbxDC (lo hi : Byte) : Statement (.nopAbxDC lo hi) := ⟨rfl, rfl, Nat.le_refl _⟩
theorem cmpAbx (lo hi : Byte) : Statement (.cmpAbx lo hi) := ⟨rfl, rfl, Nat.le_refl _⟩
theorem decAbx (lo hi : Byte) : Statement (.decAbx lo hi) := ⟨rfl, rfl, Nat.le_refl _⟩
theorem dcpAbx (lo hi : Byte) : Statement (.dcpAbx lo hi) := ⟨rfl, rfl, Nat.le_refl _⟩
theorem cpxImm (b : Byte) : Statement (.cpxImm b) := ⟨rfl, rfl, Nat.le_succ _⟩
theorem sbcIzx (b : Byte) : Statement (.sbcIzx b) := ⟨rfl, rfl, Nat.le_succ _⟩
theorem nopImmE2 (b : Byte) : Statement (.nopImmE2 b) := ⟨rfl, rfl, Nat.le_succ _⟩
theorem isbIzx (b : Byte) : Statement (.isbIzx b) := ⟨rfl, rfl, Nat.le_succ _⟩
theorem cpxZp (b : Byte) : Statement (.cpxZp b) := ⟨rfl, rfl, Nat.le_succ _⟩
theorem sbcZp (b : Byte) : Statement (.sbcZp b) := ⟨rfl, rfl, Nat.le_succ _⟩
theorem incZp (b : Byte) : Statement (.incZp b) := ⟨rfl, rfl, Nat.le_succ _⟩
theorem isbZp (b : Byte) : Statement (.isbZp b) := ⟨rfl, rfl, Nat.le_succ _⟩
theorem sbcImm (b : Byte) : Statement (.sbcImm b) := ⟨rfl, rfl, Nat.le_succ _⟩
theorem sbcImmEB (b : Byte) : Statement (.sbcImmEB b) := ⟨rfl, rfl, Nat.le_succ _⟩
theorem cpxAbs (lo hi : Byte) : Statement (.cpxAbs lo hi) := ⟨rfl, rfl, Nat.le_refl _⟩
theorem sbcAbs (lo hi : Byte) : Statement (.sbcAbs lo hi) := ⟨rfl, rfl, Nat.le_refl _⟩
theorem incAbs (lo hi : Byte) : Statement (.incAbs lo hi) := ⟨rfl, rfl, Nat.le_refl _⟩
theorem isbAbs (lo hi : Byte) : Statement (.isbAbs lo hi) := ⟨rfl, rfl, Nat.le_refl _⟩
theorem beq (b : Byte) : Statement (.beq b) := ⟨rfl, rfl, Nat.le_succ _⟩
theorem sbcIzy (b : Byte) : Statement (.sbcIzy b) := ⟨rfl, rfl, Nat.le_succ _⟩
theorem isbIzy (b : Byte) : Statement (.isbIzy b) := ⟨rfl, rfl, Nat.le_succ _⟩
theorem nopZpxF4 (b : Byte) : Statement (.nopZpxF4 b) := ⟨rfl, rfl, Nat.le_succ _⟩
theorem sbcZpx (b : Byte) : Statement (.sbcZpx b) := ⟨rfl, rfl, Nat.le_succ _⟩
theorem incZpx (b : Byte) : Statement (.incZpx b) := ⟨rfl, rfl, Nat.le_succ _⟩
theorem isbZpx (b : Byte) : Statement (.isbZpx b) := ⟨rfl, rfl, Nat.le_succ _⟩
theorem sbcAby (lo hi : Byte) : Statement (.sbcAby lo hi) := ⟨rfl, rfl, Nat.le_refl _⟩
theorem isbAby (lo hi : Byte) : Statement (.isbAby lo hi) := ⟨rfl, rfl, Nat.le_refl _⟩
theorem nopAbxFC (lo hi : Byte) : Statement (.nopAbxFC lo hi) := ⟨rfl, rfl, Nat.le_refl _⟩
theorem sbcAbx (lo hi : Byte) : Statement (.sbcAbx lo hi) := ⟨rfl, rfl, Nat.le_refl _⟩
theorem incAbx (lo hi : Byte) : Statement (.incAbx lo hi) := ⟨rfl, rfl, Nat.le_refl _⟩
theorem isbAbx (lo hi : Byte) : Statement (.isbAbx lo hi) := ⟨rfl, rfl, Nat.le_refl _⟩
theorem brk : Statement .brk := ⟨rfl, rfl, Nat.zero_le _⟩
theorem jam02 : Statement .jam02 := ⟨rfl, rfl, Nat.zero_le _⟩
theorem php : Statement .php := ⟨rfl, rfl, Nat.zero_le _⟩
theorem aslAcc : Statement .aslAcc := ⟨rfl, rfl, Nat.zero_le _⟩
theorem jam12 : Statement .jam12 := ⟨rfl, rfl, Nat.zero_le _⟩
theorem clc : Statement .clc := ⟨rfl, rfl, Nat.zero_le _⟩
theorem nopImp1A : Statement .nopImp1A := ⟨rfl, rfl, Nat.zero_le _⟩
theorem jam22 : Statement .jam22 := ⟨rfl, rfl, Nat.zero_le _⟩
theorem plp : Statement .plp := ⟨rfl, rfl, Nat.zero_le _⟩
theorem rolAcc : Statement .rolAcc := ⟨rfl, rfl, Nat.zero_le _⟩
theorem jam32 : Statement .jam32 := ⟨rfl, rfl, Nat.zero_le _⟩
theorem sec : Statement .sec := ⟨rfl, rfl, Nat.zero_le _⟩
theorem nopImp3A : Statement .nopImp3A := ⟨rfl, rfl, Nat.zero_le _⟩
theorem rti : Statement .rti := ⟨rfl, rfl, Nat.zero_le _⟩
theorem jam42 : Statement .jam42 := ⟨rfl, rfl, Nat.zero_le _⟩
theorem pha : Statement .pha := ⟨rfl, rfl, Nat.zero_le _⟩
theorem lsrAcc : Statement .lsrAcc := ⟨rfl, rfl, Nat.zero_le _⟩
theorem jam52 : Statement .jam52 := ⟨rfl, rfl, Nat.zero_le _⟩
theorem cli : Statement .cli := ⟨rfl, rfl, Nat.zero_le _⟩
theorem nopImp5A : Statement .nopImp5A := ⟨rfl, rfl, Nat.zero_le _⟩
theorem rts : Statement .rts := ⟨rfl, rfl, Nat.zero_le _⟩
theorem jam62 : Statement .jam62 := ⟨rfl, rfl, Nat.zero_le _⟩
theorem pla : Statement .pla := ⟨rfl, rfl, Nat.zero_le _⟩
theorem rorAcc : Statement .rorAcc := ⟨rfl, rfl, Nat.zero_le _⟩
theorem jam72 : Statement .jam72 := ⟨rfl, rfl, Nat.zero_le _⟩
theorem sei : Statement .sei := ⟨rfl, rfl, Nat.zero_le _⟩
theorem nopImp7A : Statement .nopImp7A := ⟨rfl, rfl, Nat.zero_le _⟩
theorem dey : Statement .dey := ⟨rfl, rfl, Nat.zero_le _⟩
theorem txa : Statement .txa := ⟨rfl, rfl, Nat.zero_le _⟩
theorem jam92 : Statement .jam92 := ⟨rfl, rfl, Nat.zero_le _⟩
theorem tya : Statement .tya := ⟨rfl, rfl, Nat.zero_le _⟩
theorem txs : Statement .txs := ⟨rfl, rfl, Nat.zero_le _⟩
theorem tay : Statement .tay := ⟨rfl, rfl, Nat.zero_le _⟩
theorem tax : Statement .tax := ⟨rfl, rfl, Nat.zero_le _⟩
theorem jamB2 : Statement .jamB2 := ⟨rfl, rfl, Nat.zero_le _⟩
theorem clv : Statement .clv := ⟨rfl, rfl, Nat.zero_le _⟩
theorem tsx : Statement .tsx := ⟨rfl, rfl, Nat.zero_le _⟩
theorem iny : Statement .iny := ⟨rfl, rfl, Nat.zero_le _⟩
theorem dex : Statement .dex := ⟨rfl, rfl, Nat.zero_le _⟩
theorem jamD2 : Statement .jamD2 := ⟨rfl, rfl, Nat.zero_le _⟩
theorem cld : Statement .cld := ⟨rfl, rfl, Nat.zero_le _⟩
theorem nopImpDA : Statement .nopImpDA := ⟨rfl, rfl, Nat.zero_le _⟩
theorem inx : Statement .inx := ⟨rfl, rfl, Nat.zero_le _⟩
theorem nop : Statement .nop := ⟨rfl, rfl, Nat.zero_le _⟩
theorem jamF2 : Statement .jamF2 := ⟨rfl, rfl, Nat.zero_le _⟩
theorem sed : Statement .sed := ⟨rfl, rfl, Nat.zero_le _⟩
theorem nopImpFA : Statement .nopImpFA := ⟨rfl, rfl, Nat.zero_le _⟩

end Sys2Proof.Laws.Encoding
end

