-- ==== Sys2Proof/Laws/Reset.lean ====
section
/-! SUPPORT. `State.reset` is what the reset sequence makes of the power-on state, and its memories are canonical. -/

namespace Sys2Proof.Laws

open Sys2Proof.Machine

/-- The seven bus cycles of 70_reset_and_hazards.md R630 from power-on give `State.reset`. -/
theorem reset_eq_attach :
    resetSequence (State.powerOn Params.default Cart.blank [] [] [] (Vector.replicate 32 0)) = State.reset := by
  decide +kernel

/-- Every memory of `State.reset` is canonical. -/
theorem reset_wf :
    State.reset.ram.wf ∧ State.reset.cart.prgRom.wf ∧ State.reset.cart.chr.wf ∧ State.reset.cart.prgRam.wf ∧
      State.reset.ppu.oam.wf ∧ State.reset.ppu.ntRam.wf ∧ State.reset.ppu.frame.wf := by
  decide

end Sys2Proof.Laws
end

