-- ==== Sys2Proof/Tests/Slice0.lean ====
section
/-! SUPPORT. Tests: expected results come from spec/95_test_vectors.md (the identifier stands before each test) or from
the encoding table of spec/30_encoding.md. The witnesses at the end meet the hypotheses of the statements of
Certificates/Slice0/Obligations.lean, with a boundary value for every clause. -/

namespace Sys2Proof.Tests

open Sys2Proof.Machine

/-! ### States for the tests -/

/-- The vectors' start: the state after reset, with code at $8000 in NROM PRG ROM. -/
def start : State := { State.reset with pc := 0x8000 }

/-- `bytes` at $8000 of a state. -/
def code (bytes : List Byte) (s : State) : State := placeBytes 0x8000 bytes s

/-- The state after one step. -/
def after (s : State) : State :=
  match step s with
  | .next t => t
  | _ => s

/-- One step of `bytes` at $8000 from `s`. -/
def run (bytes : List Byte) (s : State) : State := after (code bytes s)

/-- The flags in the vectors' order `NVDIZC`. -/
def flags (n v d i z c : Bool) : Flags := { n := n, v := v, d := d, i := i, z := z, c := c }

/-- The start flags `nvdIzc` with carry. -/
def withC (c : Bool) (s : State) : State := { s with p := { s.p with c := c } }

/-- The state past the warm-up of 62_ppu.md R428. -/
def warm : State := { start with cycles := 29658 }

/-- The start state with `UNSTABLE_FATAL` false and the given chip constants. -/
def unstable (ane lxa : Byte) : State :=
  { start with params := { Params.default with unstableFatal := false, aneMagic := ane, lxaMagic := lxa } }

/-! ### What well-formedness refuses -/

/-- A 16-byte header: PRG and CHR units, bytes 6 and 7. -/
def header (prg chr b6 b7 : Byte) : List Byte := [0x4E, 0x45, 0x53, 0x1A, prg, chr, b6, b7, 0, 0, 0, 0, 0, 0, 0, 0]

/-- An image of one 16 KiB bank of PRG ROM, full of `v`. -/
def image (v b6 b7 : Byte) : List Byte := header 1 0 b6 b7 ++ List.replicate 16384 v

/-- The refused signature: one byte off, and a header cut short. -/
theorem test_wf_signature :
    imageSigned (0x4F :: (header 1 0 0 0).drop 1) = false ∧ imageSigned ((header 1 0 0 0).take 15) = false ∧
      imageSigned (header 1 0 0 0) = true := by decide

/-- The refused sizes: no PRG unit, and one byte less than announced. -/
theorem test_wf_complete :
    imageComplete (header 0 0 0 0) = false ∧ imageComplete ((image 0 0 0).take 16399) = false ∧
      imageComplete (image 0 0 0) = true := by decide +kernel

/-- MAP-18 and MAP-19: byte 6 = $10 is mapper 1, byte 6 = $50 is mapper 5 and refused. -/
theorem test_wf_mapper :
    imageMapper (header 1 0 0x10 0) = 1 ∧ imageSupported (header 1 0 0x10 0) = true ∧
      imageSupported (header 1 0 0x50 0) = false := by decide

/-- MAP-20: a battery save file of 8,191 bytes is refused, one of 8,192 or none is not. -/
theorem test_wf_save :
    saveFileOk (header 1 0 2 0) (some (List.replicate 8191 0)) = false ∧
      saveFileOk (header 1 0 2 0) (some (List.replicate 8192 0)) = true ∧
      saveFileOk (header 1 0 2 0) none = true := by decide +kernel

/-- Every instruction is well formed (30_encoding.md R118: every opcode decodes). -/
theorem test_wf_instr : (Instr.ldaImm 0xFF).wf = true ∧ Instr.jam02.wf = true := by decide

/-! ### Decoding: every constructor by a word of the matrix of 30_encoding.md R115, operands $34 and $12 -/

/-- Row $0x of the matrix. -/
theorem test_decode_row_0 :
    ∀ f ∈ ([([0x00], .brk), ([0x01, 0x34], .oraIzx 0x34), ([0x02], .jam02), ([0x03, 0x34], .sloIzx 0x34),
       ([0x04, 0x34], .nopZp04 0x34), ([0x05, 0x34], .oraZp 0x34), ([0x06, 0x34], .aslZp 0x34), ([0x07, 0x34], .sloZp 0x34),
       ([0x08], .php), ([0x09, 0x34], .oraImm 0x34), ([0x0A], .aslAcc), ([0x0B, 0x34], .ancImm0B 0x34),
       ([0x0C, 0x34, 0x12], .nopAbs 0x34 0x12), ([0x0D, 0x34, 0x12], .oraAbs 0x34 0x12), ([0x0E, 0x34, 0x12], .aslAbs 0x34 0x12), ([0x0F, 0x34, 0x12], .sloAbs 0x34 0x12)] : List (List Byte × Instr)),
      (decode f.1).toOption = some (f.2, []) := by decide

/-- Row $1x of the matrix. -/
theorem test_decode_row_1 :
    ∀ f ∈ ([([0x10, 0x34], .bpl 0x34), ([0x11, 0x34], .oraIzy 0x34), ([0x12], .jam12), ([0x13, 0x34], .sloIzy 0x34),
       ([0x14, 0x34], .nopZpx14 0x34), ([0x15, 0x34], .oraZpx 0x34), ([0x16, 0x34], .aslZpx 0x34), ([0x17, 0x34], .sloZpx 0x34),
       ([0x18], .clc), ([0x19, 0x34, 0x12], .oraAby 0x34 0x12), ([0x1A], .nopImp1A), ([0x1B, 0x34, 0x12], .sloAby 0x34 0x12),
       ([0x1C, 0x34, 0x12], .nopAbx1C 0x34 0x12), ([0x1D, 0x34, 0x12], .oraAbx 0x34 0x12), ([0x1E, 0x34, 0x12], .aslAbx 0x34 0x12), ([0x1F, 0x34, 0x12], .sloAbx 0x34 0x12)] : List (List Byte × Instr)),
      (decode f.1).toOption = some (f.2, []) := by decide

/-- Row $2x of the matrix. -/
theorem test_decode_row_2 :
    ∀ f ∈ ([([0x20, 0x34, 0x12], .jsr 0x1234), ([0x21, 0x34], .andIzx 0x34), ([0x22], .jam22), ([0x23, 0x34], .rlaIzx 0x34),
       ([0x24, 0x34], .bitZp 0x34), ([0x25, 0x34], .andZp 0x34), ([0x26, 0x34], .rolZp 0x34), ([0x27, 0x34], .rlaZp 0x34),
       ([0x28], .plp), ([0x29, 0x34], .andImm 0x34), ([0x2A], .rolAcc), ([0x2B, 0x34], .ancImm2B 0x34),
       ([0x2C, 0x34, 0x12], .bitAbs 0x34 0x12), ([0x2D, 0x34, 0x12], .andAbs 0x34 0x12), ([0x2E, 0x34, 0x12], .rolAbs 0x34 0x12), ([0x2F, 0x34, 0x12], .rlaAbs 0x34 0x12)] : List (List Byte × Instr)),
      (decode f.1).toOption = some (f.2, []) := by decide

/-- Row $3x of the matrix. -/
theorem test_decode_row_3 :
    ∀ f ∈ ([([0x30, 0x34], .bmi 0x34), ([0x31, 0x34], .andIzy 0x34), ([0x32], .jam32), ([0x33, 0x34], .rlaIzy 0x34),
       ([0x34, 0x34], .nopZpx34 0x34), ([0x35, 0x34], .andZpx 0x34), ([0x36, 0x34], .rolZpx 0x34), ([0x37, 0x34], .rlaZpx 0x34),
       ([0x38], .sec), ([0x39, 0x34, 0x12], .andAby 0x34 0x12), ([0x3A], .nopImp3A), ([0x3B, 0x34, 0x12], .rlaAby 0x34 0x12),
       ([0x3C, 0x34, 0x12], .nopAbx3C 0x34 0x12), ([0x3D, 0x34, 0x12], .andAbx 0x34 0x12), ([0x3E, 0x34, 0x12], .rolAbx 0x34 0x12), ([0x3F, 0x34, 0x12], .rlaAbx 0x34 0x12)] : List (List Byte × Instr)),
      (decode f.1).toOption = some (f.2, []) := by decide

/-- Row $4x of the matrix. -/
theorem test_decode_row_4 :
    ∀ f ∈ ([([0x40], .rti), ([0x41, 0x34], .eorIzx 0x34), ([0x42], .jam42), ([0x43, 0x34], .sreIzx 0x34),
       ([0x44, 0x34], .nopZp44 0x34), ([0x45, 0x34], .eorZp 0x34), ([0x46, 0x34], .lsrZp 0x34), ([0x47, 0x34], .sreZp 0x34),
       ([0x48], .pha), ([0x49, 0x34], .eorImm 0x34), ([0x4A], .lsrAcc), ([0x4B, 0x34], .alr 0x34),
       ([0x4C, 0x34, 0x12], .jmpAbs 0x34 0x12), ([0x4D, 0x34, 0x12], .eorAbs 0x34 0x12), ([0x4E, 0x34, 0x12], .lsrAbs 0x34 0x12), ([0x4F, 0x34, 0x12], .sreAbs 0x34 0x12)] : List (List Byte × Instr)),
      (decode f.1).toOption = some (f.2, []) := by decide

/-- Row $5x of the matrix. -/
theorem test_decode_row_5 :
    ∀ f ∈ ([([0x50, 0x34], .bvc 0x34), ([0x51, 0x34], .eorIzy 0x34), ([0x52], .jam52), ([0x53, 0x34], .sreIzy 0x34),
       ([0x54, 0x34], .nopZpx54 0x34), ([0x55, 0x34], .eorZpx 0x34), ([0x56, 0x34], .lsrZpx 0x34), ([0x57, 0x34], .sreZpx 0x34),
       ([0x58], .cli), ([0x59, 0x34, 0x12], .eorAby 0x34 0x12), ([0x5A], .nopImp5A), ([0x5B, 0x34, 0x12], .sreAby 0x34 0x12),
       ([0x5C, 0x34, 0x12], .nopAbx5C 0x34 0x12), ([0x5D, 0x34, 0x12], .eorAbx 0x34 0x12), ([0x5E, 0x34, 0x12], .lsrAbx 0x34 0x12), ([0x5F, 0x34, 0x12], .sreAbx 0x34 0x12)] : List (List Byte × Instr)),
      (decode f.1).toOption = some (f.2, []) := by decide

/-- Row $6x of the matrix. -/
theorem test_decode_row_6 :
    ∀ f ∈ ([([0x60], .rts), ([0x61, 0x34], .adcIzx 0x34), ([0x62], .jam62), ([0x63, 0x34], .rraIzx 0x34),
       ([0x64, 0x34], .nopZp64 0x34), ([0x65, 0x34], .adcZp 0x34), ([0x66, 0x34], .rorZp 0x34), ([0x67, 0x34], .rraZp 0x34),
       ([0x68], .pla), ([0x69, 0x34], .adcImm 0x34), ([0x6A], .rorAcc), ([0x6B, 0x34], .arr 0x34),
       ([0x6C, 0x34, 0x12], .jmpInd 0x34 0x12), ([0x6D, 0x34, 0x12], .adcAbs 0x34 0x12), ([0x6E, 0x34, 0x12], .rorAbs 0x34 0x12), ([0x6F, 0x34, 0x12], .rraAbs 0x34 0x12)] : List (List Byte × Instr)),
      (decode f.1).toOption = some (f.2, []) := by decide

/-- Row $7x of the matrix. -/
theorem test_decode_row_7 :
    ∀ f ∈ ([([0x70, 0x34], .bvs 0x34), ([0x71, 0x34], .adcIzy 0x34), ([0x72], .jam72), ([0x73, 0x34], .rraIzy 0x34),
       ([0x74, 0x34], .nopZpx74 0x34), ([0x75, 0x34], .adcZpx 0x34), ([0x76, 0x34], .rorZpx 0x34), ([0x77, 0x34], .rraZpx 0x34),
       ([0x78], .sei), ([0x79, 0x34, 0x12], .adcAby 0x34 0x12), ([0x7A], .nopImp7A), ([0x7B, 0x34, 0x12], .rraAby 0x34 0x12),
       ([0x7C, 0x34, 0x12], .nopAbx7C 0x34 0x12), ([0x7D, 0x34, 0x12], .adcAbx 0x34 0x12), ([0x7E, 0x34, 0x12], .rorAbx 0x34 0x12), ([0x7F, 0x34, 0x12], .rraAbx 0x34 0x12)] : List (List Byte × Instr)),
      (decode f.1).toOption = some (f.2, []) := by decide

/-- Row $8x of the matrix. -/
theorem test_decode_row_8 :
    ∀ f ∈ ([([0x80, 0x34], .nopImm80 0x34), ([0x81, 0x34], .staIzx 0x34), ([0x82, 0x34], .nopImm82 0x34), ([0x83, 0x34], .saxIzx 0x34),
       ([0x84, 0x34], .styZp 0x34), ([0x85, 0x34], .staZp 0x34), ([0x86, 0x34], .stxZp 0x34), ([0x87, 0x34], .saxZp 0x34),
       ([0x88], .dey), ([0x89, 0x34], .nopImm89 0x34), ([0x8A], .txa), ([0x8B, 0x34], .ane 0x34),
       ([0x8C, 0x34, 0x12], .styAbs 0x34 0x12), ([0x8D, 0x34, 0x12], .staAbs 0x34 0x12), ([0x8E, 0x34, 0x12], .stxAbs 0x34 0x12), ([0x8F, 0x34, 0x12], .saxAbs 0x34 0x12)] : List (List Byte × Instr)),
      (decode f.1).toOption = some (f.2, []) := by decide

/-- Row $9x of the matrix. -/
theorem test_decode_row_9 :
    ∀ f ∈ ([([0x90, 0x34], .bcc 0x34), ([0x91, 0x34], .staIzy 0x34), ([0x92], .jam92), ([0x93, 0x34], .shaIzy 0x34),
       ([0x94, 0x34], .styZpx 0x34), ([0x95, 0x34], .staZpx 0x34), ([0x96, 0x34], .stxZpy 0x34), ([0x97, 0x34], .saxZpy 0x34),
       ([0x98], .tya), ([0x99, 0x34, 0x12], .staAby 0x34 0x12), ([0x9A], .txs), ([0x9B, 0x34, 0x12], .tas 0x34 0x12),
       ([0x9C, 0x34, 0x12], .shy 0x34 0x12), ([0x9D, 0x34, 0x12], .staAbx 0x34 0x12), ([0x9E, 0x34, 0x12], .shx 0x34 0x12), ([0x9F, 0x34, 0x12], .shaAby 0x34 0x12)] : List (List Byte × Instr)),
      (decode f.1).toOption = some (f.2, []) := by decide

/-- Row $Ax of the matrix. -/
theorem test_decode_row_A :
    ∀ f ∈ ([([0xA0, 0x34], .ldyImm 0x34), ([0xA1, 0x34], .ldaIzx 0x34), ([0xA2, 0x34], .ldxImm 0x34), ([0xA3, 0x34], .laxIzx 0x34),
       ([0xA4, 0x34], .ldyZp 0x34), ([0xA5, 0x34], .ldaZp 0x34), ([0xA6, 0x34], .ldxZp 0x34), ([0xA7, 0x34], .laxZp 0x34),
       ([0xA8], .tay), ([0xA9, 0x34], .ldaImm 0x34), ([0xAA], .tax), ([0xAB, 0x34], .lxa 0x34),
       ([0xAC, 0x34, 0x12], .ldyAbs 0x34 0x12), ([0xAD, 0x34, 0x12], .ldaAbs 0x34 0x12), ([0xAE, 0x34, 0x12], .ldxAbs 0x34 0x12), ([0xAF, 0x34, 0x12], .laxAbs 0x34 0x12)] : List (List Byte × Instr)),
      (decode f.1).toOption = some (f.2, []) := by decide

/-- Row $Bx of the matrix. -/
theorem test_decode_row_B :
    ∀ f ∈ ([([0xB0, 0x34], .bcs 0x34), ([0xB1, 0x34], .ldaIzy 0x34), ([0xB2], .jamB2), ([0xB3, 0x34], .laxIzy 0x34),
       ([0xB4, 0x34], .ldyZpx 0x34), ([0xB5, 0x34], .ldaZpx 0x34), ([0xB6, 0x34], .ldxZpy 0x34), ([0xB7, 0x34], .laxZpy 0x34),
       ([0xB8], .clv), ([0xB9, 0x34, 0x12], .ldaAby 0x34 0x12), ([0xBA], .tsx), ([0xBB, 0x34, 0x12], .las 0x34 0x12),
       ([0xBC, 0x34, 0x12], .ldyAbx 0x34 0x12), ([0xBD, 0x34, 0x12], .ldaAbx 0x34 0x12), ([0xBE, 0x34, 0x12], .ldxAby 0x34 0x12), ([0xBF, 0x34, 0x12], .laxAby 0x34 0x12)] : List (List Byte × Instr)),
      (decode f.1).toOption = some (f.2, []) := by decide

/-- Row $Cx of the matrix. -/
theorem test_decode_row_C :
    ∀ f ∈ ([([0xC0, 0x34], .cpyImm 0x34), ([0xC1, 0x34], .cmpIzx 0x34), ([0xC2, 0x34], .nopImmC2 0x34), ([0xC3, 0x34], .dcpIzx 0x34),
       ([0xC4, 0x34], .cpyZp 0x34), ([0xC5, 0x34], .cmpZp 0x34), ([0xC6, 0x34], .decZp 0x34), ([0xC7, 0x34], .dcpZp 0x34),
       ([0xC8], .iny), ([0xC9, 0x34], .cmpImm 0x34), ([0xCA], .dex), ([0xCB, 0x34], .axs 0x34),
       ([0xCC, 0x34, 0x12], .cpyAbs 0x34 0x12), ([0xCD, 0x34, 0x12], .cmpAbs 0x34 0x12), ([0xCE, 0x34, 0x12], .decAbs 0x34 0x12), ([0xCF, 0x34, 0x12], .dcpAbs 0x34 0x12)] : List (List Byte × Instr)),
      (decode f.1).toOption = some (f.2, []) := by decide

/-- Row $Dx of the matrix. -/
theorem test_decode_row_D :
    ∀ f ∈ ([([0xD0, 0x34], .bne 0x34), ([0xD1, 0x34], .cmpIzy 0x34), ([0xD2], .jamD2), ([0xD3, 0x34], .dcpIzy 0x34),
       ([0xD4, 0x34], .nopZpxD4 0x34), ([0xD5, 0x34], .cmpZpx 0x34), ([0xD6, 0x34], .decZpx 0x34), ([0xD7, 0x34], .dcpZpx 0x34),
       ([0xD8], .cld), ([0xD9, 0x34, 0x12], .cmpAby 0x34 0x12), ([0xDA], .nopImpDA), ([0xDB, 0x34, 0x12], .dcpAby 0x34 0x12),
       ([0xDC, 0x34, 0x12], .nopAbxDC 0x34 0x12), ([0xDD, 0x34, 0x12], .cmpAbx 0x34 0x12), ([0xDE, 0x34, 0x12], .decAbx 0x34 0x12), ([0xDF, 0x34, 0x12], .dcpAbx 0x34 0x12)] : List (List Byte × Instr)),
      (decode f.1).toOption = some (f.2, []) := by decide

/-- Row $Ex of the matrix. -/
theorem test_decode_row_E :
    ∀ f ∈ ([([0xE0, 0x34], .cpxImm 0x34), ([0xE1, 0x34], .sbcIzx 0x34), ([0xE2, 0x34], .nopImmE2 0x34), ([0xE3, 0x34], .isbIzx 0x34),
       ([0xE4, 0x34], .cpxZp 0x34), ([0xE5, 0x34], .sbcZp 0x34), ([0xE6, 0x34], .incZp 0x34), ([0xE7, 0x34], .isbZp 0x34),
       ([0xE8], .inx), ([0xE9, 0x34], .sbcImm 0x34), ([0xEA], .nop), ([0xEB, 0x34], .sbcImmEB 0x34),
       ([0xEC, 0x34, 0x12], .cpxAbs 0x34 0x12), ([0xED, 0x34, 0x12], .sbcAbs 0x34 0x12), ([0xEE, 0x34, 0x12], .incAbs 0x34 0x12), ([0xEF, 0x34, 0x12], .isbAbs 0x34 0x12)] : List (List Byte × Instr)),
      (decode f.1).toOption = some (f.2, []) := by decide

/-- Row $Fx of the matrix. -/
theorem test_decode_row_F :
    ∀ f ∈ ([([0xF0, 0x34], .beq 0x34), ([0xF1, 0x34], .sbcIzy 0x34), ([0xF2], .jamF2), ([0xF3, 0x34], .isbIzy 0x34),
       ([0xF4, 0x34], .nopZpxF4 0x34), ([0xF5, 0x34], .sbcZpx 0x34), ([0xF6, 0x34], .incZpx 0x34), ([0xF7, 0x34], .isbZpx 0x34),
       ([0xF8], .sed), ([0xF9, 0x34, 0x12], .sbcAby 0x34 0x12), ([0xFA], .nopImpFA), ([0xFB, 0x34, 0x12], .isbAby 0x34 0x12),
       ([0xFC, 0x34, 0x12], .nopAbxFC 0x34 0x12), ([0xFD, 0x34, 0x12], .sbcAbx 0x34 0x12), ([0xFE, 0x34, 0x12], .incAbx 0x34 0x12), ([0xFF, 0x34, 0x12], .isbAbx 0x34 0x12)] : List (List Byte × Instr)),
      (decode f.1).toOption = some (f.2, []) := by decide

/-- R118: no bytes decode to no instruction, and neither does an opcode whose operand is missing. -/
theorem test_decode_short :
    (decode []).toOption = none ∧ (decode [0xAD, 0x34]).toOption = none ∧
      (decode [0x20, 0x34]).toOption = none ∧ encode (.jsr 0x1234) = [0x20, 0x34, 0x12] ∧
      decodeTableWord 8 0xA9 = some (.ldaImm 0) ∧ decodeTableWord 8 0xEA = some .nop := by decide

/-- The host's placing: the next step runs the word's instruction. -/
theorem test_withFetchWord :
    (after (State.reset.withFetchWord 8 0xE8)).x = 1 ∧ (after (State.reset.withFetchWord 8 0x02)).runState = .fatal 0x02 0 := by decide

/-! ### Loads, stores, transfers and stack (95_test_vectors.md 2.1) -/

/-- LS-1: LDA #$80. -/
theorem test_ls1 :
    (let s : State := start
     let t := run [0xA9, 0x80] s
     (t.a, t.p.n, t.p.z, t.cycles - s.cycles)) = (0x80, true, false, 2) := by decide

/-- LS-2: LDX #$00. -/
theorem test_ls2 :
    (let s : State := { start with x := 1 }
     let t := run [0xA2, 0x00] s
     (t.x, t.p.z, t.cycles - s.cycles)) = (0, true, 2) := by decide

/-- LS-3: LDA $10,X wraps in page zero. -/
theorem test_ls3 :
    (let s : State := { start with x := 0xF5, ram := [(0x05, 0x99)] }
     let t := run [0xB5, 0x10] s
     (t.a, t.p.n, t.cycles - s.cycles)) = (0x99, true, 4) := by decide

/-- LS-4: LDX $10,Y wraps in page zero. -/
theorem test_ls4 :
    (let s : State := { start with y := 0xF1, ram := [(0x01, 0x80)] }
     let t := run [0xB6, 0x10] s
     (t.x, t.p.n, t.cycles - s.cycles)) = (0x80, true, 4) := by decide

/-- LS-5: LDA ($FF,X) reads the pointer's high byte from $00. -/
theorem test_ls5 :
    (let s : State := { start with ram := [(0x00, 0x02), (0xFF, 0x34), (0x234, 0x77)] }
     let t := run [0xA1, 0xFF] s
     (t.a, t.cycles - s.cycles)) = (0x77, 6) := by decide

/-- LS-6: LDA ($10),Y across a page. -/
theorem test_ls6 :
    (let s : State := { start with y := 0x10, ram := [(0x10, 0xF8), (0x11, 0x02), (0x308, 0x5A)] }
     let t := run [0xB1, 0x10] s
     (t.a, t.cycles - s.cycles)) = (0x5A, 6) := by decide

/-- LS-8: LDA $02FF,X across a page. -/
theorem test_ls8 :
    (let s : State := { start with x := 1, ram := [(0x300, 0x11)] }
     let t := run [0xBD, 0xFF, 0x02] s
     (t.a, t.cycles - s.cycles)) = (0x11, 5) := by decide

/-- LS-9: STA $02FF,X, 5 cycles. -/
theorem test_ls9 :
    (let s : State := { start with x := 1, a := 0x22 }
     let t := run [0x9D, 0xFF, 0x02] s
     (t.ram, t.cycles - s.cycles)) = ([(0x300, 0x22)], 5) := by decide

/-- LS-10: STA $0200, no flags. -/
theorem test_ls10 :
    (let s : State := { start with a := 0x42 }
     let t := run [0x8D, 0x00, 0x02] s
     (t.ram, t.p, t.cycles - s.cycles)) = ([(0x200, 0x42)], flags false false false true false false, 4) := by decide

/-- LS-11: PHA at S = $00 wraps the stack. -/
theorem test_ls11 :
    (let s : State := { start with s := 0, a := 0x11 }
     let t := run [0x48] s
     (t.ram, t.s, t.cycles - s.cycles)) = ([(0x100, 0x11)], 0xFF, 3) := by decide

/-- LS-12: PLA at S = $FF wraps the stack. -/
theorem test_ls12 :
    (let s : State := { start with s := 0xFF, ram := [(0x100, 0x80)] }
     let t := run [0x68] s
     (t.a, t.p.n, t.s, t.cycles - s.cycles)) = (0x80, true, 0, 4) := by decide

/-- LS-13: PHP pushes $34. -/
theorem test_ls13 :
    (let s : State := start
     let t := run [0x08] s
     (t.ram, t.s, t.cycles - s.cycles)) = ([(0x1FD, 0x34)], 0xFC, 3) := by decide

/-- LS-14: PLP of $FF sets the six stored flags. -/
theorem test_ls14 :
    (let s : State := { start with ram := [(0x1FE, 0xFF)] }
     let t := run [0x28] s
     (t.p, t.cycles - s.cycles)) = (flags true true true true true true, 4) := by decide

/-- LS-15: TXS sets no flag. -/
theorem test_ls15 :
    (let s : State := { start with p := { start.p with n := true } }
     let t := run [0x9A] s
     (t.s, t.p, t.cycles - s.cycles)) = (0, flags true false false true false false, 2) := by decide

/-- LS-16: TSX of 0. -/
theorem test_ls16 :
    (let s : State := { start with s := 0, x := 1 }
     let t := run [0xBA] s
     (t.x, t.p.z, t.cycles - s.cycles)) = (0, true, 2) := by decide

/-- LS-17: the dummy read of LDA $20FF,X clears VBlank and `w`. -/
theorem test_ls17 :
    (let s : State := { start with x := 3, ppu := { start.ppu with vblank := true, w := true } }
     let t := run [0xBD, 0xFF, 0x20] s
     (t.ppu.vblank, t.ppu.w, t.drawCount, t.cycles - s.cycles)) = (false, false, 2, 5) := by decide +kernel

/-! ### Arithmetic, logic, compare, shift (95_test_vectors.md 2.2) -/

/-- AR-1: ADC signed overflow. -/
theorem test_ar1 :
    (let s : State := withC false { start with a := 0x50 }
     let t := run [0x69, 0x50] s
     (t.a, t.p, t.cycles - s.cycles)) = (0xA0, flags true true false true false false, 2) := by decide

/-- AR-6: ADC is binary in decimal mode. -/
theorem test_ar6 :
    (let s : State := { start with a := 9, p := { start.p with d := true } }
     let t := run [0x69, 0x01] s
     (t.a, t.p, t.cycles - s.cycles)) = (0x0A, flags false false true true false false, 2) := by decide

/-- AR-7: SBC borrow. -/
theorem test_ar7 :
    (let s : State := withC true { start with a := 0x00 }
     let t := run [0xE9, 0x01] s
     (t.a, t.p, t.cycles - s.cycles)) = (0xFF, flags true false false true false false, 2) := by decide

/-- AR-8: SBC overflow. -/
theorem test_ar8 :
    (let s : State := withC true { start with a := 0x80 }
     let t := run [0xE9, 0x01] s
     (t.a, t.p, t.cycles - s.cycles)) = (0x7F, flags false true false true false true, 2) := by decide

/-- AR-11: the unofficial SBC. -/
theorem test_ar11 :
    (let s : State := withC true { start with a := 5 }
     let t := run [0xEB, 0x03] s
     (t.a, t.p.c, t.p.v, t.cycles - s.cycles)) = (0x02, true, false, 2) := by decide

/-- AR-12: AND. -/
theorem test_ar12 :
    (let s : State := { start with a := 0xF0 }
     let t := run [0x29, 0x3C] s
     (t.a, t.p)) = (0x30, flags false false false true false false) := by decide

/-- AR-13: ORA. -/
theorem test_ar13 :
    (let s : State := { start with a := 1 }
     let t := run [0x09, 0x80] s
     (t.a, t.p)) = (0x81, flags true false false true false false) := by decide

/-- AR-14: EOR. -/
theorem test_ar14 :
    (let s : State := { start with a := 0xFF }
     let t := run [0x49, 0x0F] s
     (t.a, t.p)) = (0xF0, flags true false false true false false) := by decide

/-- AR-15: CMP of equals. -/
theorem test_ar15 :
    (let s : State := { start with a := 0x40 }
     let t := run [0xC9, 0x40] s
     (t.a, t.p)) = (0x40, flags false false false true true true) := by decide

/-- AR-17: CMP is unsigned. -/
theorem test_ar17 :
    (let s : State := { start with a := 0x80 }
     let t := run [0xC9, 0x01] s
     t.p) = flags false false false true false true := by decide

/-- AR-18: CPX. -/
theorem test_ar18 :
    (let s : State := { start with x := 0 }
     let t := run [0xE0, 0x80] s
     t.p) = flags true false false true false false := by decide

/-- AR-19: CPY. -/
theorem test_ar19 :
    (let s : State := { start with y := 0xFF }
     let t := run [0xC0, 0x00] s
     t.p) = flags true false false true false true := by decide

/-- AR-20: BIT takes N and V from memory, Z from the AND. -/
theorem test_ar20 :
    (let s : State := { start with a := 0x0F, ram := [(0x10, 0xF0)] }
     let t := run [0x24, 0x10] s
     (t.p, t.cycles - s.cycles)) = (flags true true false true true false, 3) := by decide

/-- AR-22: ASL A. -/
theorem test_ar22 :
    (let s : State := { start with a := 0x80 }
     let t := run [0x0A] s
     (t.a, t.p, t.cycles - s.cycles)) = (0, flags false false false true true true, 2) := by decide

/-- AR-23: LSR A. -/
theorem test_ar23 :
    (let s : State := { start with a := 1 }
     let t := run [0x4A] s
     (t.a, t.p, t.cycles - s.cycles)) = (0, flags false false false true true true, 2) := by decide

/-- AR-24: ROL A. -/
theorem test_ar24 :
    (let s : State := { start with a := 0x80 }
     let t := run [0x2A] s
     (t.a, t.p, t.cycles - s.cycles)) = (0, flags false false false true true true, 2) := by decide

/-- AR-26: ROR $10. -/
theorem test_ar26 :
    (let s : State := withC true start
     let t := run [0x66, 0x10] s
     (t.ram, t.p, t.cycles - s.cycles)) = ([(0x10, 0x80)], flags true false false true false false, 5) := by decide

/-- AR-27: INC $10. -/
theorem test_ar27 :
    (let s : State := { start with ram := [(0x10, 0xFF)] }
     let t := run [0xE6, 0x10] s
     (t.ram, t.p, t.cycles - s.cycles)) = ([], flags false false false true true false, 5) := by decide

/-- AR-28: DEC $10. -/
theorem test_ar28 :
    (let s : State := start
     let t := run [0xC6, 0x10] s
     (t.ram, t.p, t.cycles - s.cycles)) = ([(0x10, 0xFF)], flags true false false true false false, 5) := by decide

/-- AR-29: INX wraps. -/
theorem test_ar29 :
    (let s : State := { start with x := 0xFF }
     let t := run [0xE8] s
     (t.x, t.p.z, t.cycles - s.cycles)) = (0, true, 2) := by decide

/-- AR-30: DEY. -/
theorem test_ar30 :
    (let s : State := { start with y := 0x80 }
     let t := run [0x88] s
     (t.y, t.p, t.cycles - s.cycles)) = (0x7F, flags false false false true false false, 2) := by decide

/-- AR-31: INC $2007 advances `v` three times. -/
theorem test_ar31 :
    (let s : State := start
     let t := run [0xEE, 0x07, 0x20] s
     (t.ppu.v, t.cycles - s.cycles)) = (3, 6) := by decide +kernel

/-! ### Branches, jumps, subroutines, flags (95_test_vectors.md 2.3) -/

/-- BR-1: BNE forwards. -/
theorem test_br1 :
    (let s : State := placeBytes 0x8000 [0xD0, 0x7F] { start with pc := 0x8000, p := { start.p with z := false } }
     let t := after s
     (t.pc, t.cycles - s.cycles)) = (0x8081, 3) := by decide

/-- BR-2: BEQ, offset -128. -/
theorem test_br2 :
    (let s : State := placeBytes 0x8080 [0xF0, 0x80] { start with pc := 0x8080, p := { start.p with z := true } }
     let t := after s
     (t.pc, t.cycles - s.cycles)) = (0x8002, 3) := by decide

/-- BR-5: BCC across a page. -/
theorem test_br5 :
    (let s : State := placeBytes 0x80FD [0x90, 0x01] { start with pc := 0x80FD, p := { start.p with c := false } }
     let t := after s
     (t.pc, t.cycles - s.cycles)) = (0x8100, 4) := by decide

/-- BR-6: BVC across a page. -/
theorem test_br6 :
    (let s : State := placeBytes 0x80FD [0x50, 0x10] { start with pc := 0x80FD, p := { start.p with v := false } }
     let t := after s
     (t.pc, t.cycles - s.cycles)) = (0x810F, 4) := by decide

/-- BR-7: BCS across a page backwards. -/
theorem test_br7 :
    (let s : State := placeBytes 0x8000 [0xB0, 0x80] { start with pc := 0x8000, p := { start.p with c := true } }
     let t := after s
     (t.pc, t.cycles - s.cycles)) = (0x7F82, 4) := by decide

/-- BR-8: BMI not taken. -/
theorem test_br8 :
    (let s : State := placeBytes 0x8000 [0x30, 0x02] { start with pc := 0x8000, p := { start.p with n := false } }
     let t := after s
     (t.pc, t.cycles - s.cycles)) = (0x8002, 2) := by decide

/-- BR-9: BVS to itself. -/
theorem test_br9 :
    (let s : State := placeBytes 0x8000 [0x70, 0xFE] { start with pc := 0x8000, p := { start.p with v := true } }
     let t := after s
     (t.pc, t.cycles - s.cycles)) = (0x8000, 3) := by decide

/-- BR-3: BPL within the page. -/
theorem test_br3 :
    (let s : State := placeBytes 0x80F0 [0x10, 0x0D] { start with pc := 0x80F0, p := { start.p with n := false } }
     let t := after s
     (t.pc, t.cycles - s.cycles)) = (0x80FF, 3) := by decide

/-- JP-1: JMP ($0300). -/
theorem test_jp1 :
    (let s : State := { start with ram := [(0x300, 0x34), (0x301, 0x12)] }
     let t := run [0x6C, 0x00, 0x03] s
     (t.pc, t.cycles - s.cycles)) = (0x1234, 5) := by decide

/-- JP-2: JMP ($80FF) takes its high byte from $8000. -/
theorem test_jp2 : (run [0x6C, 0xFF, 0x80] start).pc = 0x6C00 := by decide

/-- JMP $1234. -/
theorem test_jmp_abs :
    (let t := run [0x4C, 0x34, 0x12] start
     (t.pc, t.cycles)) = (0x1234, 10) := by decide

/-- JP-3: JSR $9000. -/
theorem test_jp3 :
    (let s : State := start
     let t := run [0x20, 0x00, 0x90] s
     (t.ram, t.s, t.pc, t.cycles - s.cycles)) = ([(0x1FC, 0x02), (0x1FD, 0x80)], 0xFB, 0x9000, 6) := by decide +kernel

/-- JP-4: RTS. -/
theorem test_jp4 :
    (let s : State := { start with s := 0xFB, ram := [(0x1FC, 0x02), (0x1FD, 0x80)] }
     let t := run [0x60] s
     (t.pc, t.s, t.cycles - s.cycles)) = (0x8003, 0xFD, 6) := by decide +kernel

/-- JP-5: BRK, with $C0 at $FFFF. -/
theorem test_jp5 :
    (let s : State := placeBytes 0xFFFF [0xC0] start
     let t := run [0x00] s
     (t.ram, t.s, t.p.i, t.pc, t.noServiceNext, t.cycles - s.cycles)) = ([(0x1FB, 0x34), (0x1FC, 0x02), (0x1FD, 0x80)], 0xFA, true, 0xC000, true, 7) := by decide

/-- JP-6: RTI. -/
theorem test_jp6 :
    (let s : State := { start with s := 0xFA, ram := [(0x1FB, 0x20), (0x1FC, 0x02), (0x1FD, 0x80)] }
     let t := run [0x40] s
     (t.p, t.pc, t.s, t.cycles - s.cycles)) = (flags false false false false false false, 0x8002, 0xFD, 6) := by decide

/-- FL-1: CLC. -/
theorem test_fl1 :
    (let s : State := withC true start
     let t := run [0x18] s
     (t.p, t.cycles - s.cycles)) = (flags false false false true false false, 2) := by decide

/-- FL-2: SED. -/
theorem test_fl2 :
    (let s : State := start
     let t := run [0xF8] s
     (t.p, t.cycles - s.cycles)) = (flags false false true true false false, 2) := by decide

/-- FL-3: CLV. -/
theorem test_fl3 :
    (let s : State := { start with p := { start.p with v := true } }
     let t := run [0xB8] s
     (t.p, t.cycles - s.cycles)) = (flags false false false true false false, 2) := by decide

/-- FL-4: after CLI with the line asserted no IRQ is pending yet, and none is seen. -/
theorem test_fl4 :
    (let s : State := { start with apu := { start.apu with frameIrq := true } }
     let t := run [0x58] s
     (t.p.i, t.irqPending, t.irqRaised, t.cycles - s.cycles)) = (false, false, false, 2) := by decide

/-- FL-5: after SEI the IRQ that the poll saw with I = 0 is taken. -/
theorem test_fl5 :
    (let s : State := { start with apu := { start.apu with frameIrq := true }, irqRaised := true, p := { start.p with i := false } }
     let t := run [0x78] s
     (t.p.i, t.irqRaised, t.cycles - s.cycles)) = (true, true, 2) := by decide

/-! ### Unofficial opcodes (95_test_vectors.md 2.4) -/

/-- UN-1: SLO. -/
theorem test_un1 :
    (let s : State := { start with a := 1, ram := [(0x10, 0x41)] }
     let t := run [0x07, 0x10] s
     (t.ram, t.a, t.p, t.cycles - s.cycles)) = ([(0x10, 0x82)], 0x83, flags true false false true false false, 5) := by decide

/-- UN-2: RLA. -/
theorem test_un2 :
    (let s : State := withC true { start with a := 0xFF, ram := [(0x10, 0x80)] }
     let t := run [0x27, 0x10] s
     (t.ram, t.a, t.p.c, t.cycles - s.cycles)) = ([(0x10, 0x01)], 1, true, 5) := by decide

/-- UN-3: SRE. -/
theorem test_un3 :
    (let s : State := { start with a := 0xFF, ram := [(0x10, 0x03)] }
     let t := run [0x47, 0x10] s
     (t.ram, t.a, t.p, t.cycles - s.cycles)) = ([(0x10, 0x01)], 0xFE, flags true false false true false true, 5) := by decide

/-- UN-5: RRA. -/
theorem test_un5 :
    (let s : State := withC true { start with a := 0x7F, ram := [(0x10, 0x02)] }
     let t := run [0x67, 0x10] s
     (t.ram, t.a, t.p, t.cycles - s.cycles)) = ([(0x10, 0x81)], 0, flags false false false true true true, 5) := by decide

/-- UN-6: DCP. -/
theorem test_un6 :
    (let s : State := { start with a := 0x40, ram := [(0x10, 0x41)] }
     let t := run [0xC7, 0x10] s
     (t.ram, t.p, t.cycles - s.cycles)) = ([(0x10, 0x40)], flags false false false true true true, 5) := by decide

/-- UN-8: ISB. -/
theorem test_un8 :
    (let s : State := withC true { start with a := 0x10, ram := [(0x10, 0x04)] }
     let t := run [0xE7, 0x10] s
     (t.ram, t.a, t.p.c, t.cycles - s.cycles)) = ([(0x10, 0x05)], 0x0B, true, 5) := by decide

/-- UN-10: LAX. -/
theorem test_un10 :
    (let s : State := { start with ram := [(0x10, 0x80)] }
     let t := run [0xA7, 0x10] s
     (t.a, t.x, t.p.n, t.cycles - s.cycles)) = (0x80, 0x80, true, 3) := by decide

/-- UN-12: SAX. -/
theorem test_un12 :
    (let s : State := { start with a := 0xF0, x := 0x3C }
     let t := run [0x87, 0x10] s
     (t.ram, t.p, t.cycles - s.cycles)) = ([(0x10, 0x30)], flags false false false true false false, 3) := by decide

/-- UN-13: NOP zp. -/
theorem test_un13 :
    (let s : State := start
     let t := run [0x04, 0x10] s
     (t.pc, t.cycles - s.cycles)) = (0x8002, 3) := by decide

/-- UN-14: NOP abx across a page. -/
theorem test_un14 :
    (let s : State := { start with x := 0xFF }
     let t := run [0x1C, 0x34, 0x12] s
     (t.pc, t.cycles - s.cycles)) = (0x8003, 5) := by decide

/-- UN-15: NOP imm. -/
theorem test_un15 :
    (let s : State := start
     let t := run [0x80, 0x55] s
     (t.pc, t.cycles - s.cycles)) = (0x8002, 2) := by decide

/-- UN-16: ANC. -/
theorem test_un16 :
    (let s : State := { start with a := 0xFF }
     let t := run [0x0B, 0x80] s
     (t.a, t.p, t.cycles - s.cycles)) = (0x80, flags true false false true false true, 2) := by decide

/-- UN-18: ALR. -/
theorem test_un18 :
    (let s : State := { start with a := 0xFF }
     let t := run [0x4B, 0x03] s
     (t.a, t.p.c, t.cycles - s.cycles)) = (1, true, 2) := by decide

/-- UN-20: ARR, V = 1. -/
theorem test_un20 :
    (let s : State := { start with a := 0xFF }
     let t := run [0x6B, 0x40] s
     (t.a, t.p, t.cycles - s.cycles)) = (0x20, flags false true false true false false, 2) := by decide

/-- UN-22: ARR, all from the result. -/
theorem test_un22 :
    (let s : State := withC true { start with a := 0xFF }
     let t := run [0x6B, 0x80] s
     (t.a, t.p, t.cycles - s.cycles)) = (0xC0, flags true true false true false true, 2) := by decide

/-- UN-23: AXS. -/
theorem test_un23 :
    (let s : State := { start with a := 0xFF, x := 0x10 }
     let t := run [0xCB, 0x01] s
     (t.x, t.p.c, t.cycles - s.cycles)) = (0x0F, true, 2) := by decide

/-- UN-25: LAS. -/
theorem test_un25 :
    (let s : State := { start with s := 0xF0, ram := [(0x200, 0x3F)] }
     let t := run [0xBB, 0x00, 0x02] s
     (t.a, t.x, t.s, t.cycles - s.cycles)) = (0x30, 0x30, 0x30, 4) := by decide

/-- UN-26: ANE. -/
theorem test_un26 :
    (let s : State := { unstable 0xEE 0 with x := 0xFF }
     let t := run [0x8B, 0xFF] s
     (t.a, t.cycles - s.cycles)) = (0xEE, 2) := by decide

/-- UN-27: LXA. -/
theorem test_un27 :
    (let s : State := unstable 0 0xFF
     let t := run [0xAB, 0x5A] s
     (t.a, t.x, t.cycles - s.cycles)) = (0x5A, 0x5A, 2) := by decide

/-- UN-28: SHA aby. -/
theorem test_un28 :
    (let s : State := { unstable 0 0 with a := 0xFF, x := 0xFF }
     let t := run [0x9F, 0x00, 0x02] s
     (t.ram, t.cycles - s.cycles)) = ([(0x200, 0x03)], 5) := by decide

/-- UN-29: SHX aby. -/
theorem test_un29 :
    (let s : State := { unstable 0 0 with x := 0xFF, y := 1 }
     let t := run [0x9E, 0x00, 0x06] s
     (t.ram, t.cycles - s.cycles)) = ([(0x601, 0x07)], 5) := by decide

/-- UN-30: SHY abx. -/
theorem test_un30 :
    (let s : State := { unstable 0 0 with y := 0xFF }
     let t := run [0x9C, 0x00, 0x02] s
     (t.ram, t.cycles - s.cycles)) = ([(0x200, 0x03)], 5) := by decide

/-- UN-31: TAS aby. -/
theorem test_un31 :
    (let s : State := { unstable 0 0 with a := 0xF0, x := 0x3F, ram := [(0x200, 0x55)] }
     let t := run [0x9B, 0x00, 0x02] s
     (t.s, t.ram, t.cycles - s.cycles)) = (0x30, [], 5) := by decide

/-- UN-32: SHX aby across a page. -/
theorem test_un32 :
    (let s : State := { unstable 0 0 with x := 0xFF, y := 0x10 }
     let t := run [0x9E, 0xF8, 0x02] s
     (t.ram, t.cycles - s.cycles)) = ([(0x308, 0x03)], 5) := by decide

/-- UN-33: JAM. -/
theorem test_un33 :
    (let s : State := start
     let t := run [0x02] s
     (t.runState, t.pc, t.cycles - s.cycles)) = (.fatal 0x02 0x8000, 0x8001, 1) := by decide

/-- With `UNSTABLE_FATAL` true an unstable opcode halts after one cycle, and no step follows (R290, R340). -/
theorem test_unstable_fatal :
    (run [0x8B, 0xFF] start).runState = .fatal 0x8B 0x8000 ∧ (run [0x8B, 0xFF] start).cycles = 8 ∧
      (match step (run [0x8B, 0xFF] start) with | .fault .sessionEnded => true | _ => false) = true := by decide

/-! ### Interrupts and reset (95_test_vectors.md 2.5) -/

/-- An attach of an image with the reset vector $8000 (the vector is PRG bytes $3FFC and $3FFD). -/
def launch : Launch :=
  { image := header 1 0 0 0 ++ List.replicate 0x3FFC 0 ++ [0x00, 0x80, 0, 0]
    save := none
    params := Params.default
    ramInit := []
    oamInit := []
    vramInit := []
    palInit := Vector.replicate 32 0
    chrRamInit := []
    prgRamInit := [] }

/-- IN-1: the state after an attach. -/
theorem test_in1 :
    (match attach launch with
     | .ok s =>
       s.pc == 0x8000 && s.s == 0xFD && s.p == flags false false false true false false && s.ram == []
         && s.cycles == 7 && s.ppu.dot == 21 && s.ppu.scanline == 0
     | .error _ => false) = true := by decide +kernel

/-- IN-2: IRQ entry, then the first handler instruction (NOP at $C000) in the same step. -/
theorem test_in2 :
    (let s := placeBytes 0xC000 [0xEA] (placeBytes 0xFFFE [0x00, 0xC0]
       { start with pc := 0x8123, irqPending := true, p := { start.p with i := false, c := true } })
     let t := after s
     (t.ram, t.s, t.p.i, t.pc, t.cycles - s.cycles)) =
      ([(0x1FB, 0x21), (0x1FC, 0x23), (0x1FD, 0x81)], 0xFA, true, 0xC001, 9) := by decide

/-- IN-3: NMI entry takes the vector $FFFA. -/
theorem test_in3 :
    (let s := placeBytes 0xFFFA [0x00, 0x90] { start with nmiPending := true }
     let t := interruptSequence s
     (t.pc, t.nmiPending, t.ram.read 0x1FB)) = (0x9000, false, 0x24) := by decide +kernel

/-- IN-4: an NMI pending at a BRK takes over its vector; the pushed B is 1. -/
theorem test_in4 :
    (let t := run [0x00] (placeBytes 0xFFFA [0x00, 0x90] { start with nmiRaised := true })
     (t.pc, t.nmiPending, t.ram.read 0x1FB)) = (0x9000, false, 0x34) := by decide +kernel

/-- IN-6: after the $2002 read at (241, 1) VBlank is not set. -/
theorem test_in6 :
    (let s : State := { start with ppu := { start.ppu with scanline := 241, dot := 1, vblank := false } }
     (s.ppu.vblankRace, (deviceEffect 0x2002 s).ppu.suppressVblank,
       (tickPpus 3 (deviceEffect 0x2002 s)).ppu.vblank)) = (true, true, false) := by decide

/-- IN-8: the last cycle of a taken branch within its page captures no interrupt. -/
theorem test_in8 :
    (let t := run [0xD0, 0x02] { start with apu := { start.apu with frameIrq := true }, p := { start.p with i := false } }
     (t.pc, t.irqRaised, t.cycles)) = (0x8004, true, 10) := by decide

/-! ### DMA (95_test_vectors.md 2.6) -/

/-- DMA-1 and DMA-2, the first transfer: the byte of the page lands at OAMADDR, which advances. -/
theorem test_dma2 :
    (let s : State := { start with ram := [(0x200, 0xFF)], ppu := { start.ppu with oamAddr := 0x12 } }
     let t := oamTransfer 0x0200 s
     (t.ppu.oam, t.ppu.oamAddr, t.cycles - s.cycles)) = ([(0x12, 0xE3)], 0x13, 2) := by decide

/-- DMA-4: with `DMC_REREAD` the halted read of $4016 is repeated, so the controller shifts four times. -/
theorem test_dma4 :
    (let s : State := { start with
       dmcRequest := true, pad1 := { shift := 0xF0, count := 0 }, apu := { start.apu with
         dmc := { start.apu.dmc with bytesLeft := 2 } } }
     let t := (busRead 0x4016 s).2
     (t.pad1.shift, t.pad1.count, t.cycles - s.cycles, t.dmcRequest)) = (0x0F, 4, 5, false) := by decide +kernel

/-- DMA-5: a $4015 write that starts a sample with an empty buffer. -/
theorem test_dma5 :
    (let t := deviceWrite 0x4015 0x10 start
     (t.dmcRequest, t.dmaDelay, t.apu.dmc.bytesLeft, t.apu.dmc.curAddr)) = (true, 2, 1, 0xC000) := by decide

/-- DMA-6: the sample address wraps from $FFFF to $8000. -/
theorem test_dma6 : nextSampleAddr 0xFFFF = 0x8000 := by decide

/-! ### Picture unit (95_test_vectors.md 2.7) -/

/-- PPU-1. -/
theorem test_ppu1 : (deviceWrite 0x2000 0x03 warm).ppu.t = 0x0C00 := by decide

/-- PPU-2. -/
theorem test_ppu2 :
    (let s1 := deviceWrite 0x2005 0x7D warm
     let s2 := deviceWrite 0x2005 0x5E s1
     (s1.ppu.t, s1.ppu.fineX, s1.ppu.w, s2.ppu.t, s2.ppu.w)) = (0x000F, 5, true, 0x616F, false) := by decide

/-- PPU-3. -/
theorem test_ppu3 :
    (let s := deviceWrite 0x2006 0x08 (deviceWrite 0x2006 0x21 warm)
     (s.ppu.t, s.ppu.v, s.ppu.w)) = (0x2108, 0x2108, false) := by decide

/-- PPU-5. -/
theorem test_ppu5 :
    (let s : State := { warm with ppu := { warm.ppu with v := 0x2108, readBuffer := 0xAA, ntRam := [(0x108, 0x55)] } }
     let s1 := deviceEffect 0x2007 s
     (deviceValue 0x2007 s, deviceValue 0x2007 s1, (deviceEffect 0x2007 s1).ppu.v)) = (0xAA, 0x55, 0x210A) := by decide

/-- PPU-6, but for the drawn bits: the read buffer takes the byte under the palette. -/
theorem test_ppu6 :
    (let s : State := { warm with ppu := { warm.ppu with v := 0x3F00, ntRam := [(0x700, 0x12)] } }
     ((deviceEffect 0x2007 s).ppu.readBuffer, (deviceEffect 0x2007 s).ppu.v)) = (0x12, 0x3F01) := by decide

/-- PPU-7. -/
theorem test_ppu7 :
    (let s := deviceWrite 0x2007 0x01 { warm with ppu := { warm.ppu with v := 0x2000, ctrl := 4 } }
     (s.ppu.ntRam, s.ppu.v)) = ([(0, 1)], 0x2020) := by decide

/-- PPU-8. -/
theorem test_ppu8 :
    (deviceWrite 0x2007 0xFF { warm with ppu := { warm.ppu with v := 0x3F10 } }).ppu.palette[0] = 0x3F := by decide

/-- PPU-9, PPU-10, PPU-11. -/
theorem test_ppu9 : incX 0x041F = 0 ∧ incY 0x73A0 = 0x0800 ∧ incY 0x73E0 = 0 := by decide

/-- PPU-12. -/
theorem test_ppu12 :
    (let s := deviceWrite 0x2004 0xFF { warm with ppu := { warm.ppu with oamAddr := 2 } }
     (s.ppu.oam, s.ppu.oamAddr)) = ([(2, 0xE3)], 3) := by decide

/-- PPU-13. -/
theorem test_ppu13 :
    (deviceWrite 0x2000 0x80 { warm with cycles := 29657 }).ppu.ctrl = 0 ∧ (deviceWrite 0x2000 0x80 warm).ppu.ctrl = 0x80 := by decide

/-- Both layers opaque at the current column, sprite 0 in slot 0, all columns shown. -/
def opaqueBoth : Ppu :=
  { start.ppu with
    mask := 0x1E, slot0IsZero := true, sprCount := 1
    slots := Vector.replicate 8 { lo := 0xFF, hi := 0xFF, attr := 0, x := 0 }
    bg := { start.ppu.bg with bgLo := 0xFFFF } }

/-- PPU-14 to PPU-16: no hit at columns 0 and 255, a hit at column 1. -/
theorem test_ppu14 :
    opaqueBoth.spriteZeroHits 0 = false ∧ opaqueBoth.spriteZeroHits 255 = false ∧ opaqueBoth.spriteZeroHits 1 = true ∧
      (({ opaqueBoth with dot := 2 } : Ppu).tick 0 0 Cart.blank).1.spr0Hit = true := by decide

/-- PPU-17: the odd frame skips a dot when rendering is enabled. -/
theorem test_ppu17 :
    (let p : Ppu := { start.ppu with dot := 339, scanline := 261, oddFrame := true, mask := 8 }
     (p.advance.dot, p.advance.scanline, p.advance.oddFrame)) = (0, 0, false) := by decide

/-- PPU-19: VBlank is set at (241, 1) and cleared at (261, 1). -/
theorem test_ppu19 :
    (({ start.ppu with scanline := 241, dot := 1 } : Ppu).tick 0 0 Cart.blank).1.vblank = true ∧
      (({ start.ppu with scanline := 261, dot := 1, vblank := true } : Ppu).tick 0 0 Cart.blank).1.vblank = false ∧
      ({ start.ppu with scanline := 240, dot := 0 } : Ppu).frameCompletes = true := by decide

/-- PPU-20: with eight sprites found, the ninth in range sets the overflow flag. -/
theorem test_ppu20 :
    ({ start.ppu with
        scanline := 10, oam := [(32, 10)], eval := { SpriteEval.zero0 with n := 8, found := 8 } } : Ppu).evalStep.sprOverflow =
      true := by decide

/-- PPU-21: the overflow search advances `evM` with `evN`, and tests a tile byte as a Y coordinate. -/
theorem test_ppu21 :
    (let p : Ppu := { start.ppu with
       scanline := 10, oam := [(32, 0x50), (36, 0x50), (37, 10)], eval := { SpriteEval.zero0 with n := 8, found := 8 } }
     (p.evalStep.eval.m, p.evalStep.eval.n, p.evalStep.sprOverflow, p.evalStep.evalStep.sprOverflow)) =
      (1, 9, false, true) := by decide

/-! ### Audio unit (95_test_vectors.md 2.8) -/

/-- APU-1 to APU-4. -/
theorem test_apu1 :
    (deviceWrite 0x4003 0x08 (deviceWrite 0x4015 1 start)).apu.p1.length = 254 ∧
      (deviceWrite 0x4003 0xF8 (deviceWrite 0x4015 1 start)).apu.p1.length = 30 ∧
      (deviceWrite 0x4003 0x08 (deviceWrite 0x4015 0 start)).apu.p1.length = 0 ∧
      (deviceWrite 0x4015 0 { start with apu := { start.apu with p1 := { start.apu.p1 with length := 20 } } }).apu.p1.length =
        0 := by decide

/-- APU-5 to APU-7: the sweep's target and its muting. -/
theorem test_apu5 :
    (({ Pulse.powerOn with period := 0x100, swShift := 1, swNegate := true } : Pulse).target true = 0x7F) ∧
      (({ Pulse.powerOn with period := 0x100, swShift := 1, swNegate := true } : Pulse).target false = 0x80) ∧
      (({ Pulse.powerOn with period := 0x7F0, swShift := 1 } : Pulse).muted true = true) ∧
      (({ Pulse.powerOn with period := 7 } : Pulse).muted true = true) := by decide

/-- APU-8 and APU-9: only 5-step mode clocks at once. -/
theorem test_apu8 :
    (let s : State := { start with apu := { start.apu with p1 := { start.apu.p1 with length := 254 } } }
     ((deviceWrite 0x4017 0x80 s).apu.p1.length, (deviceWrite 0x4017 0x80 s).apu.mode5,
       (deviceWrite 0x4017 0 s).apu.p1.length)) = (253, true, 254) := by decide

/-- APU-10: the frame interrupt is set in the tick that reaches 29,828, and not one tick earlier. -/
theorem test_apu10 :
    ({ Apu.powerOn with seqCycle := 29827 } : Apu).tick.frameIrq = true ∧
      ({ Apu.powerOn with seqCycle := 29826 } : Apu).tick.frameIrq = false ∧
      ({ Apu.powerOn with seqCycle := 29827, inhibit := true } : Apu).tick.frameIrq = false := by decide

/-- APU-12: the envelope's first clock after a start, and its fifth. -/
theorem test_apu12 :
    (let e : Envelope := { Envelope.powerOn with volume := 3, start := true }
     let e1 := e.clock false
     let e5 := (((e1.clock false).clock false).clock false).clock false
     (e1.decay, e1.divider, e5.decay, e5.divider)) = (15, 3, 14, 3) := by decide

/-- APU-13 and APU-14: the noise shift register, in both modes. -/
theorem test_apu13 :
    Noise.powerOn.shiftLfsr = 0x4000 ∧ ({ Noise.powerOn with lfsr := 0x4000 } : Noise).shiftLfsr = 0x2000 ∧
      ({ Noise.powerOn with mode := true } : Noise).shiftLfsr = 0x4000 := by decide

/-- APU-15: the sample address and length registers. -/
theorem test_apu15 :
    (deviceWrite 0x4012 0xC0 start).apu.dmc.sampleAddr = 0xF000 ∧ (deviceWrite 0x4013 1 start).apu.dmc.sampleLen = 17 := by decide

/-- APU-20: the last byte without a loop raises the DMC interrupt. -/
theorem test_apu20 :
    (let s : State := { start with apu := { start.apu with dmc := { start.apu.dmc with bytesLeft := 1, irqEnable := true } } }
     ((dmcDeliver 0x55 s).apu.dmc.bytesLeft, (dmcDeliver 0x55 s).apu.dmcIrq)) = (0, true) := by decide

/-! ### Cartridge (95_test_vectors.md 2.9) -/

/-- MAP-1 to MAP-4. -/
theorem test_map1 :
    (ntIndex .horizontal 0x2400 = 0 ∧ ntIndex .horizontal 0x2800 = 0x400) ∧
      (ntIndex .vertical 0x2800 = 0 ∧ ntIndex .vertical 0x2C05 = 0x405) ∧ ntIndex .fourScreen 0x2C00 = 0xC00 ∧
      ntIndex .vertical 0x3EFF = ntIndex .vertical 0x2EFF := by decide

/-- MAP-5. -/
theorem test_map5 : paletteIndex 0x10 = 0 ∧ paletteIndex 0x14 = 4 ∧ paletteIndex 0x1F = 0x1F := by decide

/-- MAP-6: NROM-128 mirrors its 16 KiB. -/
theorem test_map6 : ({ Cart.blank with prgBanks16 := 1 } : Cart).prgIndex 0xC123 = some 0x123 := by decide

/-- MAP-7 and MAP-8: bank numbers wrap. -/
theorem test_map7 :
    (let c : Cart := { Cart.blank with prgBanks16 := 8, mapper := .uxrom 0 }
     ((c.cpuWrite 1 0x8000 0x0A).prgIndex 0x8000, c.prgIndex 0xC000)) = (some 0x8000, some 0x1C000) ∧
      ((({ Cart.blank with chrBanks8 := 4, mapper := .cnrom 0 } : Cart).cpuWrite 1 0x8000 5).chrIndex 0 = some 0x2000) := by
  decide

/-- MAP-9: five serial writes on cycles that do not follow one another load `prg`. -/
theorem test_map9 :
    (Mmc1.write 18 0xE000 0 (Mmc1.write 16 0xE000 0 (Mmc1.write 14 0xE000 0 (Mmc1.write 12 0xE000 0
      (Mmc1.write 10 0xE000 1 Mmc1.powerOn))))) = { Mmc1.powerOn with prg := 1, lastWrite := some 18 } := by decide

/-- MAP-10 and MAP-11: bit 7 resets the shift register, and the write of the next cycle is ignored. -/
theorem test_map10 :
    (Mmc1.write 11 0x8000 0 (Mmc1.write 10 0x8000 0xFF { Mmc1.powerOn with control := 0, shift := 0x08 })) =
      { Mmc1.powerOn with lastWrite := some 11 } := by decide

/-- MAP-12. -/
theorem test_map12 : mmc1Mirroring 0x1E = .vertical ∧ (0x1E : BitVec 5).getLsbD 4 = true := by decide

/-- MAP-13: MMC3 program banks, before and after `select[6]`. -/
theorem test_map13 :
    (let m := Mmc3.write 0x8001 3 (Mmc3.write 0x8000 6 Mmc3.powerOn)
     let n := Mmc3.write 0x8000 0x46 m
     (mmc3PrgBank m 31 0x8000, mmc3PrgBank m 31 0xC000, mmc3PrgBank m 31 0xE000, mmc3PrgBank n 31 0x8000,
       mmc3PrgBank n 31 0xC000)) = (3, 30, 31, 30, 3) := by decide

/-- MAP-14: bank register 0 ignores bit 0. -/
theorem test_map14 :
    (let m := Mmc3.write 0x8001 5 (Mmc3.write 0x8000 0 Mmc3.powerOn)
     (mmc3ChrBank m 0, mmc3ChrBank m 1)) = (4, 5) := by decide

/-- MAP-16 and MAP-17: latch 0 asks at every clock; a rise after two cycles low is filtered. -/
theorem test_map16 :
    ({ Mmc3.powerOn with irqEnabled := true } : Mmc3).clockCounter.irqPending = true ∧
      (Mmc3.setPpuAddress 12 0x1000 { Mmc3.powerOn with irqEnabled := true, a12LowAt := 10 }).irqPending = false ∧
      (Mmc3.setPpuAddress 13 0x1000 { Mmc3.powerOn with irqEnabled := true, a12LowAt := 10 }).irqPending = true := by
  decide

/-! ### Witnesses: concrete states and operands that meet the hypotheses of the statements -/

/-- Whether an outcome is a next state. -/
def goesOn (r : Host.Outcome State Fault Refusal) : Bool :=
  match r with
  | .next _ => true
  | _ => false

/-- The start state with another picture unit. -/
def withPpu (p : Ppu) : State := { start with ppu := p }

/-- Rendering with background shown, on line 0. -/
def rendering : Ppu := { start.ppu with mask := 0x08 }

/-- StackResults, JumpCallReturnResults, BreakEntersHandler, InterruptEntersHandler, StackRoundTrips: `ram.wf`. -/
theorem test_witness_ramWf :
    start.ram.wf = true ∧ ({ start with ram := [(0x100, 1), (0x1FF, 2)] } : State).ram.wf = true := by decide

/-- UnstableResults and HaltResults: both values of the parameter. -/
theorem test_witness_unstable :
    (unstable 0 0).params.unstableFatal = false ∧ start.params.unstableFatal = true := by decide

/-- EveryOpcodeDecodes and DecodeInvertsEncode: bytes that decode, and a well-formed instruction. -/
theorem test_witness_decode :
    (decode [0xA9, 0x80, 0x12]).toOption = some (.ldaImm 0x80, [0x12]) ∧ (Instr.staAbs 0xFF 0xFF).wf = true := by decide

/-- StepRunsDecoded: the code of a whole instruction in ROM, and the last bytes of the address space. -/
theorem test_witness_stepRuns :
    (let s := code [0x8D, 0x34, 0x12] start
     (decode [peek s.pc s, peek (s.pc + 1) s, peek (s.pc + 2) s]).toOption = some (.staAbs 0x34 0x12, []) ∧
       s.runState = .running ∧ noService s = true ∧
       (∀ k < (encode (.staAbs 0x34 0x12)).length, plainMemory (s.pc + BitVec.ofNat 16 k) s = true) ∧
       (s.params.unstableFatal && isUnstable (Instr.staAbs 0x34 0x12).opcode) = false) ∧
    (let s : State := { start with pc := 0xFFFF }
     (decode [peek s.pc s, peek (s.pc + 1) s, peek (s.pc + 2) s]).toOption = some (.brk, [0, 0]) ∧
       (∀ k < (encode .brk).length, plainMemory (s.pc + BitVec.ofNat 16 k) s = true)) ∧
    (let s := code [0x20, 0x34, 0x12] start
     (decode [peek s.pc s, peek (s.pc + 1) s, peek (s.pc + 2) s]).toOption = some (.jsr 0x1234, []) ∧
       (∀ k < (encode (.jsr 0x1234)).length, plainMemory (s.pc + BitVec.ofNat 16 k) s = true)) := by decide +kernel

/-- StepRunsDecoded, second clause: an unstable opcode in ROM while the parameter is true. -/
theorem test_witness_stepRunsFatal :
    (let s := code [0x9B] start
     s.runState = .running ∧ noService s = true ∧ plainMemory s.pc s = true ∧
       (s.params.unstableFatal && isUnstable (peek s.pc s)) = true) := by decide

/-- StepServicesInterrupts: a pending interrupt, and none serviced after BRK. -/
theorem test_witness_service :
    noService { start with irqPending := true } = false ∧ noService start = true ∧
      noService { start with irqPending := true, noServiceNext := true } = true ∧ start.runState = .running := by decide

/-- NmiTakesItsVector: an NMI pending with its vector mapped, and none pending after the pushes. -/
theorem test_witness_nmi :
    ({ start with nmiPending := true } : State).nmiPending = true ∧ start.cart.cpuRead 0xFFFA = some 0 ∧
      start.cart.cpuRead 0xFFFB = some 0 ∧ start.cart.cpuRead 0xFFFE = some 0 ∧ start.cart.cpuRead 0xFFFF = some 0 ∧
      (let s := start
       (push (s.p.pushed false) (push (lo8 s.pc) (push (hi8 s.pc) (dummyRead s.pc (dummyRead s.pc s))))).nmiPending =
        false) := by decide +kernel

/-- InterruptLatches, CycleCounts, ResetSequence, OamDmaCycles: the DMC quiet; addresses around $4014. -/
theorem test_witness_quiet :
    dmcQuiet start = true ∧ (0x4013 : Word) ≠ 0x4014 ∧ (0x4015 : Word) ≠ 0x4014 := by decide

/-- BusCycleOrder: each of its three cases of step 2. -/
theorem test_witness_busCycle :
    (let s1 := cycleStart { start with dmaDelay := 1 }
     0 < s1.dmaDelay) ∧
    (let s1 := cycleStart { start with dmcRequest := true }
     s1.dmaDelay = 0 ∧ s1.dmcRequest = true) ∧
    (let s1 := cycleStart start
     s1.dmaDelay = 0 ∧ s1.dmcRequest = false) := by decide +kernel

/-- RamHoldsTheLastWrite: the last bytes of both RAMs and their mirrors. -/
theorem test_witness_ram :
    start.ram.wf = true ∧ start.cart.prgRam.wf = true ∧ (0x1FFF : Word).toNat < 0x2000 ∧ (0x07FF : Word).toNat < 0x2000 ∧
      0x6000 ≤ (0x6000 : Word).toNat ∧ 0x6000 ≤ (0x7FFF : Word).toNat ∧ (0x7FFF : Word).toNat < 0x8000 := by decide

/-- PlainReadsEqualPeek: boundary addresses of each kind of plain memory. -/
theorem test_witness_plain :
    ([0x0000, 0x1FFF, 0x6000, 0x7FFF, 0x8000, 0xFFFF] : List Word).all (fun a => plainMemory a start) = true := by decide

/-- OpenBusReads: boundary addresses of every range it names. -/
theorem test_witness_openBus :
    ([0x4000, 0x4014] : List Word).all (fun a => 0x4000 ≤ a.toNat ∧ a.toNat ≤ 0x4014) = true ∧
      ([0x4018, 0x401F] : List Word).all (fun a => 0x4018 ≤ a.toNat ∧ a.toNat ≤ 0x401F) = true ∧
      ([0x2000, 0x2001, 0x3FFB, 0x3FFD, 0x3FFE] : List Word).all
        (fun a => 0x2000 ≤ a.toNat ∧ a.toNat < 0x4000 ∧ a.toNat % 8 ∈ [0, 1, 3, 5, 6]) = true ∧
      ([0x4020, 0x5FFF] : List Word).all (fun a => 0x4020 ≤ a.toNat ∧ start.cart.cpuRead a = none) = true ∧
      ([0x4018, 0x5FFF] : List Word).all (fun a => 0x4018 ≤ a.toNat ∧ a.toNat < 0x6000) = true ∧
      ([0x2002, 0x3FFA] : List Word).all (fun a => 0x2000 ≤ a.toNat ∧ a.toNat < 0x4000 ∧ a.toNat % 8 = 2) = true := by
  decide

/-- ControllerPorts: strobe written 1 and 0, strobe set and clear. -/
theorem test_witness_controller :
    (1 : Byte).getLsbD 0 = true ∧ (0xFE : Byte).getLsbD 0 = false ∧ start.strobe = false ∧
      ({ start with strobe := true } : State).strobe = true := by decide

/-- CycleCounts: stores around the DMA register, direct and across a page. -/
theorem test_witness_cycles :
    (descriptor (Instr.staAbs 0x13 0x40).opcode).cls = .write ∧ storeAddressOf (.staAbs 0x13 0x40) start ≠ 0x4014 ∧
      storeAddressOf (.staAbs 0x15 0x40) start ≠ 0x4014 ∧ storeAddressOf (.staAbs 0x14 0x40) start = 0x4014 ∧
      (descriptor (Instr.incAbx 0xFF 0x3F).opcode).cls = .rmw ∧
      storeAddressOf (.incAbx 0xFF 0x3F) { start with x := 0x16 } ≠ 0x4014 ∧
      (descriptor (Instr.ldaAbs 0x14 0x40).opcode).cls = .read := by decide

/-- ResetSequence: a mapped reset vector. AttachLeaves: `test_in1` attaches `launch`. -/
theorem test_witness_attach :
    start.cart.cpuRead 0xFFFC = some 0 ∧ start.cart.cpuRead 0xFFFD = some 0 := by decide

/-- LoadRefusals: one launch for each of its clauses. -/
theorem test_witness_load :
    (let withImage (f : List Byte) (save : Option (List Byte)) : Except LoadError Cart :=
       load { launch with image := f, save := save }
     (match withImage ((header 1 0 0 0).take 15) none with | .error e => e == .malformedHeader | _ => false) = true ∧
     (match withImage ((image 0 0 0).take 16399) none with | .error e => e == .truncated | _ => false) = true ∧
     (match withImage (header 0 0 0 0) none with | .error e => e == .truncated | _ => false) = true ∧
     (match withImage (image 0 0x50 0) none with | .error e => e == .unsupportedMapper | _ => false) = true ∧
     (match withImage (image 0 0x02 0) (some [0]) with | .error e => e == .corruptSave | _ => false) = true ∧
     (match withImage (image 0 0x48 0) none with
      | .ok c => c.mirroring == .fourScreen && c.mapper.variant == 4
      | _ => false) = true ∧
     (match withImage (header 1 1 4 0 ++ List.replicate 512 9 ++ (1 :: List.replicate 16383 0) ++ (2 :: List.replicate 8191 0)) none with
      | .ok c => c.prgRom.read 0 == 1 && c.chr.read 0 == 2
      | _ => false) = true) := by decide +kernel

/-- OamDmaCycles: a request for the last byte with no countdown and with the longest one, for a byte that is not the
last, with and without a loop, and none. -/
theorem test_witness_oamDmaDmc :
    (let asks (left : BitVec 12) (again : Bool) (wait : Nat) : State :=
       { start with
         dmcRequest := true, dmaDelay := wait
         apu := { start.apu with dmc := { start.apu.dmc with bytesLeft := left, loop := again } } }
     (asks 1 false 0).dmcRequest = true ∧ (asks 1 false 0).dmaDelay = 0 ∧ (asks 1 false 3).dmaDelay ≤ 3 ∧
       (asks 1 false 3).apu.dmc.bytesLeft = 1 ∧ (asks 1 false 3).apu.dmc.loop = false ∧
       plainMemory (asks 1 false 3).apu.dmc.curAddr (asks 1 false 3) = true ∧
       2 ≤ (asks 2 false 0).apu.dmc.bytesLeft.toNat ∧ (asks 1 true 0).apu.dmc.loop = true ∧
       (asks 1 false 3).dmaDelay ≠ 0 ∧ start.dmcRequest = false ∧ start.apu.dmc.loop = false ∧
       ((oamServiceDmc 0x300 (asks 1 false 0)).cycles, (oamServiceDmc 0x300 (asks 1 false 0)).apu.dmc.bytesLeft) =
         ((asks 1 false 0).cycles + 2, 0)) := by decide +kernel

/-- D31: a palette write drives its address, so MMC3 sees A12 rise; rendering is active, so no new `v` is driven. -/
theorem test_paletteDrives :
    (let c : Cart := { Cart.blank with mapper := .mmc3 Mmc3.powerOn }
     let r := Ppu.writeData 9 0x21 { rendering with v := 0x3F00 } c
     (r.1.palette[0], match r.2.mapper with | .mmc3 m => m.a12 | _ => false)) = (0x21, true) := by decide

/-- OamDmaFills: the last page of RAM's range, rendering off, OAM canonical; OamDmaCycles: both parities. -/
theorem test_witness_oamDma :
    (0x1F : Byte).toNat < 0x20 ∧ start.ppu.mask.getLsbD 3 = false ∧ start.ppu.mask.getLsbD 4 = false ∧
      start.ppu.oam.wf = true ∧ (start.cycles + 1) % 2 = 0 ∧ (start.cycles + 2) % 2 = 1 := by decide

/-- DmcStalls: a request with no countdown, for each count of bytes left, and a countdown. -/
theorem test_witness_dmc :
    (let asks (left : BitVec 12) (again ask : Bool) : State :=
       { start with
         dmcRequest := true
         apu := { start.apu with dmc := { start.apu.dmc with bytesLeft := left, loop := again, irqEnable := ask } } }
     (asks 2 false false).dmaDelay = 0 ∧ (cycleStart (asks 2 false false)).dmcRequest = true ∧
       plainMemory (asks 2 false false).apu.dmc.curAddr (asks 2 false false) = true ∧
       2 ≤ (asks 2 false false).apu.dmc.bytesLeft.toNat ∧ (asks 1 true false).apu.dmc.bytesLeft = 1 ∧
       (asks 1 true false).apu.dmc.loop = true ∧ (asks 1 false true).apu.dmc.loop = false ∧
       (asks 1 false true).apu.dmc.irqEnable = true ∧ 0 < ({ start with dmaDelay := 3 } : State).dmaDelay) := by decide

/-- PpuRegisterWrites, PpuDataPort, StatusReads: the first and last address of each register, both sides of the warm-up,
both values of `w`, rendering on and off. -/
theorem test_witness_ppuRegisters :
    (∀ f ∈ ([(0x2000, 0), (0x3FF8, 0), (0x2001, 1), (0x3FF9, 1), (0x2002, 2), (0x3FFA, 2), (0x2003, 3), (0x3FFB, 3),
       (0x2004, 4), (0x3FFC, 4), (0x2005, 5), (0x3FFD, 5), (0x2006, 6), (0x3FFE, 6), (0x2007, 7),
       (0x3FFF, 7)] : List (Word × Nat)), 0x2000 ≤ f.1.toNat ∧ f.1.toNat < 0x4000 ∧ f.1.toNat % 8 = f.2) ∧
      ({ warm with cycles := 29657 } : State).cycles < 29658 ∧ 29658 ≤ warm.cycles ∧ start.ppu.w = false ∧
      ({ start.ppu with w := true } : Ppu).w = true ∧ rendering.renderingActive = true ∧
      start.ppu.renderingActive = false := by decide

/-- PpuDataPort and PpuBusMirrors: the bounds of pattern, nametable and palette addresses, and a canonical nametable. -/
theorem test_witness_vram :
    (0x1FFF : BitVec 14).toNat < 0x2000 ∧ 0x2000 ≤ (0x2000 : BitVec 14).toNat ∧ (0x3EFF : BitVec 14).toNat < 0x3F00 ∧
      0x3F00 ≤ (0x3F00 : BitVec 14).toNat ∧ start.ppu.ntRam.wf = true := by decide

/-- StatusReads: the race and the dot next to it, the clearing of secondary OAM and the dot after it. -/
theorem test_witness_status :
    (let at_ (line dot : Nat) (p : Ppu) : Ppu := { p with scanline := line, dot := dot }
     (at_ 241 1 start.ppu).vblankRace = true ∧ (at_ 241 0 start.ppu).vblankRace = false ∧
       ((at_ 0 64 rendering).renderingActive = true ∧ 1 ≤ (at_ 0 64 rendering).dot ∧ (at_ 0 64 rendering).dot ≤ 64) ∧
       ¬ (at_ 0 65 rendering).dot ≤ 64) := by decide

/-- DotAdvance, RenderingDisabledHolds, SpriteZeroHit: positions at the bounds, rendering off, and a hit. -/
theorem test_witness_dots :
    (let at_ (line dot : Nat) (p : Ppu) : Ppu := { p with scanline := line, dot := dot }
     ((at_ 261 340 start.ppu).dot ≤ 340 ∧ (at_ 261 340 start.ppu).scanline ≤ 261) ∧
       (start.ppu.mask.getLsbD 3 = false ∧ start.ppu.mask.getLsbD 4 = false) ∧
       ¬ ((at_ 261 2 start.ppu).scanline = 261 ∧ (at_ 261 2 start.ppu).dot = 1) ∧
       ((at_ 239 256 start.ppu).tick 1 8 Cart.blank).1.dot = 257 ∧
       (let p : Ppu := { at_ 241 1 start.ppu with suppressVblank := true }
        ((p.tick 1 8 Cart.blank).1.vblank, (p.tick 1 8 Cart.blank).1.suppressVblank) = (false, false)) ∧
       ((at_ 239 255 opaqueBoth).tick 0 0 Cart.blank).1.spr0Hit = true ∧
       ((at_ 239 256 opaqueBoth).tick 0 0 Cart.blank).1.spr0Hit = false) := by decide

/-- ApuControlWrites: the sample channel's bit set and clear, a sample playing and not, the buffer full and empty, and
$4017 with bit 7 set and clear. -/
theorem test_witness_apuControl :
    (0x10 : Byte).getLsbD 4 = true ∧ (0xEF : Byte).getLsbD 4 = false ∧ (0x7F : Byte).getLsbD 7 = false ∧
      (0x80 : Byte).getLsbD 7 = true ∧ start.apu.dmc.bytesLeft = 0 ∧ start.apu.dmc.bufferEmpty = true ∧ start.apu.dmc.sampleLen ≠ 0 ∧
      ({ start.apu.dmc with bytesLeft := 0xFFF } : Dmc).bytesLeft ≠ 0 ∧
      ({ start.apu.dmc with bufferEmpty := false } : Dmc).bufferEmpty = false := by decide

/-- AudioOutputs and FrameInterruptTiming: a silent channel, a muted one, and a sequence just reset in each mode. -/
theorem test_witness_audio :
    (({ Pulse.powerOn with period := 8 } : Pulse).muted true = false ∧ Pulse.powerOn.muted true = true) ∧
      Pulse.powerOn.length = 0 ∧ Apu.powerOn.fcDelay = 0 ∧ Apu.powerOn.seqCycle = 0 ∧ Apu.powerOn.frameIrq = false ∧
      (Apu.powerOn.mode5 = false ∧ Apu.powerOn.inhibit = false) ∧
      ({ Apu.powerOn with mode5 := true } : Apu).mode5 = true ∧
      ({ Apu.powerOn with inhibit := true } : Apu).inhibit = true := by decide

/-- SerialPort: an empty shift register and cycles that do not follow one another; a write in the next cycle; a reset; a
load that changes `control` and one of the value it holds, each at the mirroring of the header. -/
theorem test_witness_serial :
    Mmc1.powerOn.shift = 0x10 ∧ Mmc1.powerOn.lastWrite ≠ some (10 - 1) ∧ (12 : Nat) ≠ 10 + 1 ∧
      (∀ v ∈ ([1, 0, 0, 0, 0x7F] : List Byte), v.getLsbD 7 = false) ∧
      ({ Mmc1.powerOn with lastWrite := some 9 } : Mmc1).lastWrite = some 9 ∧ (0x80 : Byte).getLsbD 7 = true ∧
      (let m : Mmc1 := { Mmc1.powerOn with shift := 1 }
       ({ Cart.blank with mapper := .mmc1 m } : Cart).mapper = .mmc1 m ∧ 0x8000 ≤ (0x8000 : Word).toNat ∧
         (m.write 10 0x9FFF 1).control ≠ m.control ∧ 0x8000 ≤ (0xFFFF : Word).toNat) ∧
      (let m : Mmc1 := { Mmc1.powerOn with shift := 0x19 }
       let c : Cart := { Cart.blank with mapper := .mmc1 m, mirroring := .horizontal }
       (m.write 10 0x8000 0).control = m.control ∧ (c.cpuWrite 10 0x8000 0).mirroring = .singleLow) := by decide

/-- ScanlineCounter: the first and last address of each register pair, a counter about to be reloaded, and a cartridge
that follows $A000 and one that does not. -/
theorem test_witness_scanline :
    (∀ f ∈ ([(0x8000, 0x8000, 0xA000), (0x9FFE, 0x8000, 0xA000), (0xA000, 0xA000, 0xC000), (0xBFFE, 0xA000, 0xC000),
       (0xC000, 0xC000, 0xE000), (0xDFFE, 0xC000, 0xE000), (0xE000, 0xE000, 0x10000),
       (0xFFFE, 0xE000, 0x10000)] : List (Word × Nat × Nat)),
      f.2.1 ≤ f.1.toNat ∧ f.1.toNat < f.2.2 ∧ (f.1.toNat % 2 == 0) = true) ∧
    (∀ f ∈ ([(0x8001, 0x8000, 0xA000), (0x9FFF, 0x8000, 0xA000), (0xA001, 0xA000, 0xC000), (0xBFFF, 0xA000, 0xC000),
       (0xC001, 0xC000, 0xE000), (0xDFFF, 0xC000, 0xE000), (0xE001, 0xE000, 0x10000),
       (0xFFFF, 0xE000, 0x10000)] : List (Word × Nat × Nat)),
      f.2.1 ≤ f.1.toNat ∧ f.1.toNat < f.2.2 ∧ (f.1.toNat % 2 == 0) = false) ∧
    (let m : Mmc3 := { Mmc3.powerOn with irqReload := true, irqEnabled := true, irqLatch := 0xFF }
     m.irqReload = true ∧ m.irqEnabled = true ∧ m.irqPending = false) ∧
    (let c (header : Mirroring) : Cart :=
       { Cart.blank with mapper := .mmc3 Mmc3.powerOn, headerMirroring := header, mirroring := header }
     (c .horizontal).mapper = .mmc3 Mmc3.powerOn ∧ ((c .horizontal).cpuWrite 1 0xBFFE 0).mirroring = .vertical ∧
       ((c .fourScreen).cpuWrite 1 0xA000 0).mirroring = .fourScreen) := by decide

/-- BankMapping: the bounds of program and pattern addresses, a cartridge of each variant, each mode of MMC1. -/
theorem test_witness_banks :
    (0x8000 ≤ 0xFFFF ∧ 0xFFFF < 0x10000 ∧ 0 < Cart.blank.prgBanks16 ∧ 2 ≤ Cart.blank.prgBanks16 ∧ 0x1FFF < 0x2000) ∧
      Cart.blank.mapper = .nrom ∧ ({ Cart.blank with mapper := .cnrom 3 } : Cart).mapper = .cnrom 3 ∧
      ({ Cart.blank with mapper := .uxrom 0xFF } : Cart).mapper = .uxrom 0xFF ∧
      ({ Cart.blank with mapper := .mmc1 Mmc1.powerOn } : Cart).mapper = .mmc1 Mmc1.powerOn ∧
      ({ Cart.blank with mapper := .mmc3 Mmc3.powerOn } : Cart).mapper = .mmc3 Mmc3.powerOn ∧
      (Mmc1.powerOn.control.extractLsb' 2 2).toNat = 3 ∧ ((0x0B : BitVec 5).extractLsb' 2 2).toNat = 2 ∧
      ((0x07 : BitVec 5).extractLsb' 2 2).toNat < 2 ∧
      0x8000 ≤ (0x8000 : Word).toNat ∧ 0x8000 ≤ (0xFFFF : Word).toNat ∧
      start.cart.prgIndex 0x8000 = some 0 ∧ (start.cart.prgIndex 0xFFFF).isSome = true ∧
      Cart.blank.chrIndex 0x1FFF = some 0x1FFF ∧ ({ Cart.blank with chrBanks8 := 1 } : Cart).chrIndex 0 = some 0 := by decide

/-- StepKeepsInv and StepKeepsCartridge: a state that meets the invariant and whose step answers a next state. -/
theorem test_witness_step : runInv start = true ∧ goesOn (step start) = true := by decide +kernel

end Sys2Proof.Tests
end

section
/-! PROOFS of what every step keeps of the cartridge and of time (`StepKeepsCartridge`), from the laws of `Since`. -/

namespace Sys2Proof.Machine

/-- Bus cycles and register changes keep `Since`. -/
theorem Since.reaches {s t u : State} {n : Nat} (h : Since s n t) (k : Reaches t u) : Since s n u :=
  k _ (since_closed s n).closed h

/-- The opcode fetch counts at least one bus cycle, so the bound on the count moves up by one. -/
theorem Since.fetchOperand {s t : State} {n : Nat} (h : Since s n t) : Since s (n + 1) (fetchOperand t).2 := by
  obtain ⟨hcart, hparams, -⟩ := h.reaches (reaches_fetchOperand t)
  obtain ⟨-, -, hcount⟩ := h
  exact ⟨hcart, hparams, Nat.lt_of_le_of_lt hcount (busRead_later t.pc t)⟩

/-- After a step the cartridge and the parameters are as before, and one bus cycle at least has been counted: the
servicing of interrupts, the opcode fetch and the rest of the instruction, one after the other. -/
theorem since_step {s t : State} (h : step s = .next t) : Since s (s.cycles + 1) t :=
  have serviced : Since s s.cycles (serviceInterrupts s) := (since_self s).reaches (reaches_serviceInterrupts s)
  have fetched : Since s (s.cycles + 1) (fetchOperand (serviceInterrupts s)).2 := serviced.fetchOperand
  fetched.reaches (step_runs h).2

/-- Settles O59: `Since` holds of the state itself, every part of a step keeps it, and the opcode fetch of a step that
answers a next state counts a cycle. -/
theorem stepKeepsCartridge : Obligations.StepKeepsCartridge := by
  intro s t h
  obtain ⟨⟨rom, banks16, banks8, battery, header, variant, chr⟩, params, later⟩ := since_step h
  exact ⟨rom, banks16, banks8, battery, header, variant, params, chr, later⟩

end Sys2Proof.Machine
end

section
/-! PROOFS about the opcodes that end the session (`HaltResults`). -/

namespace Sys2Proof.Machine

/-- `op` is the opcode of `i`, and running `i` ends the session as `Fatal(op)` does (60_exceptions.md R352): the opcode
and its address are recorded, all else is frozen. -/
def Halts (s : State) (op : Byte) (i : Instr) : Prop :=
  i.opcode = op ∧ exec i s = .next (s.withCpu { s.cpu with runState := .fatal op (s.pc - 1) })

/-- `Fatal(op)` changes `runState` only. -/
theorem raiseFatal_eq (op : Byte) (s : State) :
    raiseFatal op s = s.withCpu { s.cpu with runState := .fatal op (s.pc - 1) } := rfl

/-- An instruction whose meaning is `Fatal(op)` halts. -/
theorem Halts.of_raiseFatal {s : State} {op : Byte} {i : Instr} (hop : i.opcode = op)
    (h : exec i s = .next (raiseFatal op s)) : Halts s op i :=
  ⟨hop, by rw [h, raiseFatal_eq]⟩

/-- Where `UNSTABLE_FATAL` is true an unstable opcode does not run its own effect (44_unofficial.md R290). -/
theorem unstable_fatal {op : Byte} {run : State → Result} {s : State} (h : s.params.unstableFatal = true) :
    unstable op run s = .next (raiseFatal op s) :=
  if_pos h

/-- An unstable opcode halts there, whatever its own effect `run` is. -/
theorem Halts.of_unstable {s : State} {op : Byte} {i : Instr} (run : State → Result)
    (h : s.params.unstableFatal = true) (hop : i.opcode = op) (hi : exec i s = unstable op run s) : Halts s op i :=
  .of_raiseFatal hop (hi.trans (unstable_fatal h))

/-- No step exists once the session has ended (00_scope.md R12, 60_exceptions.md R340). -/
theorem step_fatal {s : State} {op : Byte} {addr : Word} (h : s.runState = .fatal op addr) :
    step s = .fault .sessionEnded := by
  rw [step, h]

/-- Settles O20: every JAM opcode means `Fatal`, every unstable one does under its parameter, and a fatal state has no
step. -/
theorem haltResults : Obligations.HaltResults := by
  intro s b lo hi
  refine ⟨fun f hf => ?jam, fun h f hf => ?unstable, fun _ _ => step_fatal rfl⟩
  case jam =>
    change Halts s f.1 f.2
    simp only [List.mem_cons, List.not_mem_nil, or_false] at hf
    rcases hf with rfl | rfl | rfl | rfl | rfl | rfl | rfl | rfl | rfl | rfl | rfl | rfl <;>
      exact .of_raiseFatal rfl rfl
  case unstable =>
    change Halts s f.1 f.2
    simp only [List.mem_cons, List.not_mem_nil, or_false] at hf
    rcases hf with rfl | rfl | rfl | rfl | rfl | rfl | rfl <;> exact .of_unstable _ h rfl rfl

end Sys2Proof.Machine
end

section
/-! PROOFS about the servicing of interrupts at the start of a step (`StepServicesInterrupts`). -/

namespace Sys2Proof.Machine

/-- A step of a running session: service, fetch, run (60_exceptions.md R340). -/
theorem step_running {s : State} (h : s.runState = .running) :
    step s = exec (fetchInstr (serviceInterrupts s)).1 (fetchInstr (serviceInterrupts s)).2 := by
  rw [step, h]

/-- Writing back the value that the flag of BRK holds changes nothing. -/
theorem State.noServiceNext_self {s : State} {b : Bool} (h : s.noServiceNext = b) : { s with noServiceNext := b } = s := by
  subst h
  rfl

/-- Where nothing is serviced, only the flag that BRK leaves is cleared. -/
theorem serviceInterrupts_of_noService {s : State} (h : noService s = true) :
    serviceInterrupts s = { s with noServiceNext := false } := by
  cases held : s.noServiceNext with
  | true => exact if_pos held
  | false =>
    rw [noService, held, Bool.false_or, Bool.not_eq_true'] at h
    rw [serviceInterrupts, if_neg (ne_true_of_eq_false held), if_neg (ne_true_of_eq_false h),
      State.noServiceNext_self held]

/-- Where an interrupt is serviced, the interrupt sequence runs, and BRK held nothing back. -/
theorem serviceInterrupts_of_service {s : State} (h : noService s = false) :
    serviceInterrupts s = interruptSequence s ∧ s.noServiceNext = false := by
  simp only [noService, Bool.or_eq_false_iff, Bool.not_eq_false'] at h
  obtain ⟨held, pending⟩ := h
  exact ⟨by rw [serviceInterrupts, if_neg (ne_true_of_eq_false held), if_pos pending], held⟩

/-- The shared entry starts after two dummy reads, which leave registers and memories as they were. -/
theorem kept_beforeInterrupt (s : State) : Kept s (dummyRead (dummyRead s.pc s).pc (dummyRead s.pc s)) :=
  (kept_dummyRead _ s).trans (kept_dummyRead _ _)

/-- The registers after the shared entry: `S` three lower, `I` set, `PC` at the handler. -/
theorem enterHandler_cpu (b : Bool) {s0 s : State} (k : Kept s0 s) :
    ∃ handler, (enterHandler b s).cpu = { s0.cpu with s := s0.s - 3, pc := handler, p := { s0.p with i := true } } := by
  obtain ⟨hentry, -⟩ := enterHandler_spec b s0 s k
  exact ⟨_, (congrArg State.cpu hentry).trans (State.withCpu_cpu _ _)⟩

/-- The registers after the interrupt sequence. -/
theorem interruptSequence_cpu (s : State) :
    ∃ handler, (interruptSequence s).cpu = { s.cpu with s := s.s - 3, pc := handler, p := { s.p with i := true } } :=
  enterHandler_cpu false (kept_beforeInterrupt s)

/-- The interrupt sequence neither ends the session nor holds back a service. -/
theorem interruptSequence_flow (s : State) :
    (interruptSequence s).runState = s.runState ∧ (interruptSequence s).noServiceNext = s.noServiceNext := by
  obtain ⟨handler, hcpu⟩ := interruptSequence_cpu s
  rw [← State.cpu_runState, ← State.cpu_noServiceNext, hcpu]
  exact ⟨rfl, rfl⟩

/-- A step whose service is held back starts with the fetch. -/
theorem step_held {s : State} (hrun : s.runState = .running) (hheld : s.noServiceNext = false) :
    step { s with noServiceNext := true } = exec (fetchInstr s).1 (fetchInstr s).2 := by
  have cleared : serviceInterrupts { s with noServiceNext := true } = s :=
    (serviceInterrupts_of_noService rfl).trans (State.noServiceNext_self hheld)
  have running : ({ s with noServiceNext := true } : State).runState = .running := hrun
  rw [step_running running, cleared]

/-- Settles O25: a step services at most once, and it goes on as the state after the interrupt sequence does when its
own service is held back. -/
theorem stepServicesInterrupts : Obligations.StepServicesInterrupts := by
  intro s hrun
  refine ⟨fun h => ?serviced, fun h => ?notServiced⟩
  case serviced =>
    obtain ⟨hserv, hheld⟩ := serviceInterrupts_of_service h
    obtain ⟨running, notHeld⟩ := interruptSequence_flow s
    rw [hrun] at running
    rw [hheld] at notHeld
    exact ⟨running, by rw [step_held running notHeld, step_running hrun, hserv]⟩
  case notServiced =>
    exact ⟨_, by rw [step_running hrun, serviceInterrupts_of_noService h]⟩

end Sys2Proof.Machine
end

section
/-! PROOFS about the two RAMs of the CPU bus (`RamHoldsTheLastWrite`): reads and writes of cartridge RAM, as
`busRead_ram` and `busWrite_ram` say them of internal RAM. -/

namespace Sys2Proof.Machine

/-- `addr` lies in cartridge RAM, $6000 to $7FFF (20_memory.md R88). -/
def InPrgRam (addr : Word) : Prop := 0x6000 ≤ addr.toNat ∧ addr.toNat < 0x8000

/-- The cartridge answers there from its RAM (64_cartridge_mappers.md R578). -/
theorem Cart.cpuRead_prgRam {addr : Word} (h : InPrgRam addr) (c : Cart) :
    c.cpuRead addr = some (c.prgRam.read (addr.toNat - 0x6000)) := by
  obtain ⟨above, below⟩ := h
  rw [Cart.cpuRead, if_neg (by omega), if_pos below]

/-- The cartridge stores a byte written there to its RAM (64_cartridge_mappers.md R578). -/
theorem Cart.cpuWrite_prgRam {addr : Word} (h : InPrgRam addr) (now : Nat) (v : Byte) (c : Cart) :
    c.cpuWrite now addr v = { c with prgRam := c.prgRam.write (addr.toNat - 0x6000) v } := by
  obtain ⟨above, below⟩ := h
  rw [Cart.cpuWrite, if_neg (by omega), if_pos below]

/-- From $4020 on a write goes to the cartridge. -/
theorem deviceWrite_cart (addr : Word) (v : Byte) (s : State) (h : 0x4020 ≤ addr.toNat) :
    deviceWrite addr v s = { s with cart := s.cart.cpuWrite s.cycles addr v } := by
  rw [deviceWrite, if_neg (by omega), if_neg (by omega), if_neg (by omega), if_neg (by omega), if_neg (by omega),
    if_neg (by omega), if_neg (by omega)]

/-- A read of cartridge RAM returns its byte. -/
theorem busRead_prgRam {addr : Word} (h : InPrgRam addr) (s : State) :
    (busRead addr s).1 = s.cart.prgRam.read (addr.toNat - 0x6000) :=
  busRead_cart addr s _ (Nat.le_trans (by decide) h.1) (Cart.cpuRead_prgRam h s.cart)

/-- A peek at cartridge RAM returns its byte. -/
theorem peek_prgRam {addr : Word} (h : InPrgRam addr) (s : State) :
    peek addr s = s.cart.prgRam.read (addr.toNat - 0x6000) := by
  rw [peek, deviceValue_cart addr s (Nat.le_trans (by decide) h.1), Cart.cpuRead_prgRam h, Option.getD_some]

/-- A peek at internal RAM returns its byte, through every mirror. -/
theorem peek_ram {addr : Word} (h : addr.toNat < 0x2000) (s : State) : peek addr s = s.ram.read (addr.toNat % 0x800) :=
  if_pos h

/-- A write bus cycle to cartridge RAM stores its byte there. -/
theorem busWrite_prgRam {addr : Word} (h : InPrgRam addr) (v : Byte) (s : State) :
    (busWrite addr v s).cart.prgRam = s.cart.prgRam.write (addr.toNat - 0x6000) v := by
  have above : 0x6000 ≤ addr.toNat := h.1
  rw [busWrite_of_ne addr v s (by omega), (kept_writeCycle addr v s).cart.prgRam,
    deviceWrite_cart addr v _ (by omega)]
  simp only [Cart.cpuWrite_prgRam h, (kept_atWrite s).cart.prgRam]

/-- A canonical memory reads back the byte last written at its address, and every other byte as before. -/
theorem Memory.read_write (m : Memory) (a b : Nat) (v : Byte) (hm : m.wf) :
    (m.write a v).read b = if b = a then v else m.read b := by
  split
  case isTrue same => rw [same, Memory.read_write_same m a v hm]
  case isFalse other => exact Memory.read_write_other m a b v other

/-- Two addresses of cartridge RAM select the same byte only where they are equal: it has no mirror. -/
theorem prgRam_offset_inj {a b : Word} (ha : InPrgRam a) (hb : InPrgRam b) :
    b.toNat - 0x6000 = a.toNat - 0x6000 ↔ b = a := by
  obtain ⟨ha, -⟩ := ha
  obtain ⟨hb, -⟩ := hb
  rw [← BitVec.toNat_inj]
  omega

/-- Settles O31: each RAM is one canonical memory, which the write stores to and the read returns a byte of. -/
theorem ramHoldsTheLastWrite : Obligations.RamHoldsTheLastWrite := by
  intro s a b v
  refine ⟨fun hwf ha hb => ?internal, fun hwf ha ha' hb hb' => ?cartridge⟩
  case internal =>
    rw [busRead_ram b _ hb, busWrite_ram a v s ha, peek_ram hb, Memory.read_write _ _ _ _ hwf]
  case cartridge =>
    have inA : InPrgRam a := ⟨ha, ha'⟩
    have inB : InPrgRam b := ⟨hb, hb'⟩
    rw [busRead_prgRam inB, busWrite_prgRam inA, peek_prgRam inB, Memory.read_write _ _ _ _ hwf]
    simp only [prgRam_offset_inj inA inB]

end Sys2Proof.Machine
end

section
/-! PROOFS about the controller ports (`ControllerPorts`). What a read of a port answers and leaves is said once, of
either port. -/

namespace Sys2Proof.Machine

/-- The bits of a port read: the data bit, four zeros, three drawn bits (20_memory.md R84). -/
theorem overlay_port (data : Bool) (d : Byte) :
    let x := overlay 0x1F#8 ((bit data).setWidth 8) d
    x.getLsbD 0 = data ∧ x.extractLsb' 1 4 = 0 ∧ x.extractLsb' 5 3 = d.extractLsb' 5 3 := by
  refine ⟨by simp [overlay, bit], BitVec.eq_of_getLsbD_eq fun i hi => ?zeros, BitVec.eq_of_getLsbD_eq fun i hi => ?drawn⟩
  case zeros =>
    match i, hi with
    | 0, _ | 1, _ | 2, _ | 3, _ => simp [overlay, bit]
  case drawn =>
    match i, hi with
    | 0, _ | 1, _ | 2, _ => simp [overlay, bit]

/-- The data bit of a port: its next bit, or 1 when all eight are out. -/
theorem padBit_eq (pad : Pad) : padBit pad = (decide (8 ≤ pad.count) || pad.shift.getLsbD 0) := by
  unfold padBit
  split
  case isTrue more => rw [decide_eq_false (Nat.not_le_of_lt more), Bool.false_or]
  case isFalse out => rw [decide_eq_true (Nat.le_of_not_lt out), Bool.true_or]

/-- A read of a port answers its data bit, zeros and drawn bits. -/
theorem padValue_bits (p : Port) (pad : Pad) (s : State) :
    (padValue p pad s).extractLsb' 1 4 = 0 ∧
      (padValue p pad s).extractLsb' 5 3 = (Config.draw s.drawCount).extractLsb' 5 3 ∧
      (padValue p pad s).getLsbD 0 = padBit (padNow p pad s) := by
  obtain ⟨data, zeros, drawnBits⟩ := overlay_port (padBit (padNow p pad s)) (drawn s)
  exact ⟨zeros, drawnBits, data⟩

/-- With the strobe clear a read finds the port as it is, and shifts one bit out. -/
theorem pad_strobeClear (p : Port) (pad : Pad) {s : State} (h : s.strobe = false) :
    padNow p pad s = pad ∧ padShifted p pad s = padAfter 1 pad :=
  ⟨if_neg (ne_true_of_eq_false h), if_neg (ne_true_of_eq_false h)⟩

/-- With the strobe set a read finds the port loaded again, and leaves it so. -/
theorem pad_strobeSet (p : Port) (pad : Pad) {s : State} (h : s.strobe = true) :
    padNow p pad s = { shift := Config.buttons p s.drawCount, count := 0 } ∧
      padShifted p pad s = { shift := Config.buttons p s.drawCount, count := 0 } :=
  ⟨if_pos h, (if_pos h).trans (if_pos h)⟩

/-- What the reads of the two ports answer. -/
theorem deviceValue_ports (s : State) :
    deviceValue 0x4016 s = padValue .one s.pad1 s ∧ deviceValue 0x4017 s = padValue .two s.pad2 s :=
  ⟨rfl, rfl⟩

/-- What they leave: the port that was read, and one draw used up. -/
theorem deviceEffect_ports (s : State) :
    deviceEffect 0x4016 s = { s with pad1 := padShifted .one s.pad1 s, drawCount := s.drawCount + 1 } ∧
      deviceEffect 0x4017 s = { s with pad2 := padShifted .two s.pad2 s, drawCount := s.drawCount + 1 } :=
  ⟨rfl, rfl⟩

/-- The data bit after `k` reads is bit `k` of what the port held, or 1 when all eight are out. -/
theorem padAfter_bit (k : Nat) (pad : Pad) :
    (decide (8 ≤ (padAfter k pad).count) || (padAfter k pad).shift.getLsbD 0) =
      (decide (8 ≤ pad.count + k) || pad.shift.getLsbD k) := by
  induction k generalizing pad with
  | zero => rfl
  | succ k ih =>
    rw [padAfter, ih]
    split
    case isTrue more =>
      dsimp only
      rw [BitVec.getLsbD_ushiftRight, Nat.add_assoc, Nat.add_comm 1 k]
    case isFalse out =>
      rw [decide_eq_true (show 8 ≤ pad.count + k by omega), decide_eq_true (show 8 ≤ pad.count + (k + 1) by omega),
        Bool.true_or, Bool.true_or]

/-- A write to $4016 sets the strobe and loads both ports where bit 0 is set, and clears the strobe where it is not. -/
theorem deviceWrite_strobe (v : Byte) (s : State) : deviceWrite 0x4016 v s = writeStrobe v s := rfl

/-- Settles O34: the strobe write by its two cases, the reads by the two cases of the strobe, and the sequence of bits
by induction on the number of reads. -/
theorem controllerPorts : Obligations.ControllerPorts := by
  intro s v
  obtain ⟨value1, value2⟩ := deviceValue_ports s
  obtain ⟨effect1, effect2⟩ := deviceEffect_ports s
  obtain ⟨zeros1, drawn1, data1⟩ := padValue_bits .one s.pad1 s
  obtain ⟨zeros2, drawn2, data2⟩ := padValue_bits .two s.pad2 s
  refine ⟨fun h => ?load, fun h => ?release, ?reads, fun buttons k => ?sequence⟩
  case load => rw [deviceWrite_strobe, writeStrobe, if_pos h, bumpDraw]
  case release => rw [deviceWrite_strobe, writeStrobe, if_neg (ne_true_of_eq_false h)]
  case reads =>
    rw [value1, value2, effect1, effect2]
    refine ⟨zeros1, zeros2, drawn1, drawn2, fun h => ?clear, fun h => ?set⟩
    case clear =>
      obtain ⟨now1, shifted1⟩ := pad_strobeClear .one s.pad1 h
      obtain ⟨now2, shifted2⟩ := pad_strobeClear .two s.pad2 h
      rw [data1, data2, now1, now2, shifted1, shifted2, padBit_eq, padBit_eq]
      exact ⟨rfl, rfl, rfl, rfl⟩
    case set =>
      obtain ⟨now1, shifted1⟩ := pad_strobeSet .one s.pad1 h
      obtain ⟨now2, shifted2⟩ := pad_strobeSet .two s.pad2 h
      rw [data1, data2, now1, now2, shifted1, shifted2]
      exact ⟨rfl, rfl, rfl, rfl⟩
  case sequence =>
    simpa only [Nat.zero_add] using padAfter_bit k { shift := buttons, count := 0 }

end Sys2Proof.Machine
end

section
/-! PROOFS about what the stack gives back (`StackRoundTrips`). Each sequence that pushes or pulls is said once, as the
registers and the internal RAM it leaves; a round trip is one such fact after another. -/

namespace Sys2Proof.Machine

/-! ### Register changes of a state that bus cycles kept -/

theorem Kept.setS {s t : State} (v : Byte) (k : Kept s t) : Kept (s.setS v) (t.setS v) :=
  ⟨by rw [State.setS_cpu, State.setS_cpu, k.cpu], k.ram, k.oam, k.ntRam, k.palette, k.cart⟩

theorem Kept.setP {s t : State} (f : Flags) (k : Kept s t) : Kept (s.setP f) (t.setP f) :=
  ⟨by rw [State.setP_cpu, State.setP_cpu, k.cpu], k.ram, k.oam, k.ntRam, k.palette, k.cart⟩

theorem Kept.setPc {s t : State} (v : Word) (k : Kept s t) : Kept (s.setPc v) (t.setPc v) :=
  ⟨by rw [State.setPc_cpu, State.setPc_cpu, k.cpu], k.ram, k.oam, k.ntRam, k.palette, k.cart⟩

/-! ### The status byte -/

/-- The eight bits of the pushed status byte (10_state.md R35). -/
theorem Flags.pushed_bits (f : Flags) (b : Bool) :
    (f.pushed b).getLsbD 7 = f.n ∧ (f.pushed b).getLsbD 6 = f.v ∧ (f.pushed b).getLsbD 5 = true ∧
      (f.pushed b).getLsbD 4 = b ∧ (f.pushed b).getLsbD 3 = f.d ∧ (f.pushed b).getLsbD 2 = f.i ∧
      (f.pushed b).getLsbD 1 = f.z ∧ (f.pushed b).getLsbD 0 = f.c := by
  obtain ⟨c, z, i, d, v, n⟩ := f
  revert c z i d v n b
  decide

/-- Pulling a pushed status byte gives the flags, whatever its bit 4 was. -/
theorem Flags.ofByte_pushed (f : Flags) (b : Bool) : Flags.ofByte (f.pushed b) = f := by
  obtain ⟨n, v, -, -, d, i, z, c⟩ := f.pushed_bits b
  rw [Flags.ofByte, n, v, d, i, z, c]

/-! ### One push, one pull -/

/-- A pull from a state that kept what `s` has. -/
theorem pull_of_kept {s t : State} (k : Kept s t) :
    (pull t).1 = s.ram.read (256 + (s.s + 1).toNat) ∧ Kept (s.setS (s.s + 1)) (pull t).2 := by
  rw [pull_fst, k.s, k.ram, ← k.s]
  exact ⟨rfl, (k.setS _).trans (kept_pull t)⟩

/-! ### The sequences that push -/

/-- `PHP` pushes the status with B set. -/
theorem runPhp_spec (s : State) :
    (runPhp s).cpu = { s.cpu with s := s.s - 1 } ∧
      (runPhp s).ram = s.ram.write (256 + s.s.toNat) (s.p.pushed true) := by
  have k := kept_dummyRead s.pc s
  rw [runPhp, push_cpu, push_ram, k.cpu, k.ram, k.s, k.p]
  exact ⟨rfl, rfl⟩

/-- `PHA` pushes `A`. -/
theorem runPha_spec (s : State) :
    (runPha s).cpu = { s.cpu with s := s.s - 1 } ∧ (runPha s).ram = s.ram.write (256 + s.s.toNat) s.a := by
  have k := kept_dummyRead s.pc s
  rw [runPha, push_cpu, push_ram, k.cpu, k.ram, k.s, k.a]
  exact ⟨rfl, rfl⟩

/-- Two pushes, one after the other. -/
theorem push_push_spec (u v : Byte) (s : State) :
    (push v (push u s)).cpu = { s.cpu with s := s.s - 2 } ∧
      (push v (push u s)).ram = (s.ram.write (256 + s.s.toNat) u).write (256 + (s.s - 1).toNat) v := by
  have lower : (push u s).s = s.s - 1 := congrArg Cpu.s (push_cpu u s)
  rw [push_cpu, push_ram, lower, push_cpu, push_ram, sub_one_one]
  exact ⟨rfl, rfl⟩

/-- `JSR` pushes its `PC`, high byte first, and goes to its target. -/
theorem runJsr_spec (lo : Byte) (s : State) :
    (∃ target, (runJsr lo s).cpu = { s.cpu with s := s.s - 2, pc := target }) ∧
      (runJsr lo s).ram =
        (s.ram.write (256 + s.s.toNat) (hi8 s.pc)).write (256 + (s.s - 1).toNat) (lo8 s.pc) := by
  have k := kept_dummyStackRead s
  have pc1 : (push (hi8 s.pc) (dummyStackRead s)).pc = s.pc := (congrArg Cpu.pc (push_cpu _ _)).trans k.pc
  obtain ⟨cpu2, ram2⟩ := push_push_spec (hi8 s.pc) (lo8 s.pc) (dummyStackRead s)
  rw [k.s] at cpu2 ram2
  rw [k.cpu] at cpu2
  rw [k.ram] at ram2
  have k3 := kept_busRead (push (lo8 s.pc) (push (hi8 s.pc) (dummyStackRead s))).pc
    (push (lo8 s.pc) (push (hi8 s.pc) (dummyStackRead s)))
  simp only [runJsr, k.pc, pc1, State.setPc_cpu, State.setPc_ram]
  rw [k3.cpu, k3.ram, cpu2, ram2]
  exact ⟨⟨_, rfl⟩, rfl⟩

/-! ### The sequences that pull -/

/-- The cycles before the pulls of an instruction leave registers and memories alone. -/
theorem kept_beforePull (s : State) : Kept s (dummyStackRead (dummyRead s.pc s)) :=
  (kept_dummyRead _ s).trans (kept_dummyStackRead _)

/-- `PLP` pulls the flags. -/
theorem runPlp_cpu (s : State) :
    (runPlp s).cpu = { s.cpu with s := s.s + 1, p := Flags.ofByte (s.ram.read (256 + (s.s + 1).toNat)) } := by
  obtain ⟨value, k⟩ := pull_of_kept (kept_beforePull s)
  rw [runPlp, State.setP_cpu, value, k.cpu]
  rfl

/-- `PLA` pulls `A` and sets N and Z of it. -/
theorem runPla_cpu (s : State) :
    let v := s.ram.read (256 + (s.s + 1).toNat)
    (runPla s).cpu = { s.cpu with s := s.s + 1, a := v, p := s.p.setNZ v } := by
  obtain ⟨value, k⟩ := pull_of_kept (kept_beforePull s)
  rw [runPla, opLda, value, State.setNZ, State.setP_cpu, State.setA_cpu, k.cpu, State.setA_p, k.p]
  rfl

/-- `RTS` pulls `PC`, low byte first, and steps past it. -/
theorem runRts_cpu (s : State) :
    (runRts s).cpu =
      { s.cpu with
        s := s.s + 2
        pc := mk16 (s.ram.read (256 + (s.s + 2).toNat)) (s.ram.read (256 + (s.s + 1).toNat)) + 1 } := by
  obtain ⟨lo, k1⟩ := pull_of_kept (kept_beforePull s)
  obtain ⟨hi, k2⟩ := pull_of_kept k1
  have k3 := k2.trans (kept_dummyRead (mk16 (pull (pull (dummyStackRead (dummyRead s.pc s))).2).1
    (pull (dummyStackRead (dummyRead s.pc s))).1) _)
  simp only [runRts, State.setPc_cpu]
  rw [k3.cpu, lo, hi]
  simp only [State.setS_s, State.setS_ram, State.setS_cpu, add_one_one]

/-- `RTI` pulls the flags and then `PC`, low byte first. -/
theorem runRti_cpu (s : State) :
    (runRti s).cpu =
      { s.cpu with
        s := s.s + 3
        p := Flags.ofByte (s.ram.read (256 + (s.s + 1).toNat))
        pc := mk16 (s.ram.read (256 + (s.s + 3).toNat)) (s.ram.read (256 + (s.s + 2).toNat)) } := by
  obtain ⟨status, k1⟩ := pull_of_kept (kept_beforePull s)
  obtain ⟨lo, k2⟩ := pull_of_kept (k1.setP (Flags.ofByte (s.ram.read (256 + (s.s + 1).toNat))))
  obtain ⟨hi, k3⟩ := pull_of_kept k2
  simp only [runRti, returnFromInterrupt, status, State.setPc_cpu]
  rw [k3.cpu, lo, hi]
  simp only [State.setS_s, State.setS_ram, State.setS_cpu, State.setP_s, State.setP_ram, State.setP_cpu, add_one_one,
    add_two_one]

/-! ### A handler and its return -/

/-- In `t` a handler has been entered from the registers `c`: `PC` and the status, with B = `b`, stand on the stack. -/
structure Entered (b : Bool) (c : Cpu) (t : State) : Prop where
  cpu : ∃ handler, t.cpu = { c with s := c.s - 3, pc := handler, p := { c.p with i := true } }
  hi : t.ram.read (256 + c.s.toNat) = hi8 c.pc
  lo : t.ram.read (256 + (c.s - 1).toNat) = lo8 c.pc
  status : t.ram.read (256 + (c.s - 2).toNat) = c.p.pushed b

/-- The shared entry enters a handler, from a state that kept what `s0` has. -/
theorem entered_enterHandler (b : Bool) {s0 s : State} (k : Kept s0 s) (hwf : s0.ram.wf = true) :
    Entered b s0.cpu (enterHandler b s) := by
  obtain ⟨hentry, -, hstack⟩ := enterHandler_spec b s0 s k
  obtain ⟨hi, lo, status⟩ := hstack hwf
  rw [← hentry] at hi lo status
  exact ⟨enterHandler_cpu b k, hi, lo, status⟩

/-- Holding back the next service changes only that flag. -/
theorem Entered.hold {b : Bool} {c : Cpu} {t : State} (h : Entered b c t) :
    Entered b { c with noServiceNext := true } { t with noServiceNext := true } := by
  obtain ⟨⟨handler, hcpu⟩, hi, lo, status⟩ := h
  exact ⟨⟨handler, congrArg (fun c : Cpu => { c with noServiceNext := true }) hcpu⟩, hi, lo, status⟩

/-- `BRK` enters a handler from behind its padding byte, and holds back the next service. -/
theorem entered_runBrk (s : State) (hwf : s.ram.wf = true) :
    Entered true { s.cpu with pc := s.pc + 1, noServiceNext := true } (runBrk s) := by
  have k := kept_fetchOperand s
  have hwf' : (fetchOperand s).2.ram.wf = true := by rw [k.ram]; exact hwf
  have entered := entered_enterHandler true (Kept.refl _) hwf'
  rw [fetchOperand_cpu] at entered
  exact entered.hold

/-- The stack pointer after one, two and three of the pulls that follow three pushes. -/
theorem sub_three_add (b : Byte) : b - 3 + 1 = b - 2 ∧ b - 3 + 2 = b - 1 ∧ b - 3 + 3 = b := by revert b; decide

/-- `RTI` takes a handler back to the registers it was entered from. -/
theorem Entered.rti {b : Bool} {c : Cpu} {t : State} (h : Entered b c t) : (runRti t).cpu = c := by
  obtain ⟨⟨handler, hcpu⟩, hi, lo, status⟩ := h
  have hs : t.s = c.s - 3 := congrArg Cpu.s hcpu
  obtain ⟨one, two, three⟩ := sub_three_add c.s
  rw [runRti_cpu, hcpu, hs, one, two, three, hi, lo, status, Flags.ofByte_pushed, mk16_hi8_lo8]

/-! ### The round trips -/

section
variable (s : State)

/-- `PHP`, then `PLP`. -/
theorem runPlp_runPhp (hwf : s.ram.wf = true) : (runPlp (runPhp s)).cpu = s.cpu := by
  obtain ⟨hcpu, hram⟩ := runPhp_spec s
  have hs : (runPhp s).s = s.s - 1 := congrArg Cpu.s hcpu
  rw [runPlp_cpu, hcpu, hram, hs, BitVec.sub_add_cancel, Memory.read_write_same _ _ _ hwf, Flags.ofByte_pushed]
  rfl

/-- `PHA`, then `PLA`. -/
theorem runPla_runPha (hwf : s.ram.wf = true) :
    (runPla (runPha s)).cpu = { s.cpu with p := { s.p with n := s.a.getLsbD 7, z := s.a == 0 } } := by
  obtain ⟨hcpu, hram⟩ := runPha_spec s
  have hs : (runPha s).s = s.s - 1 := congrArg Cpu.s hcpu
  have hp : (runPha s).p = s.p := congrArg Cpu.p hcpu
  rw [runPla_cpu, hcpu, hram, hs, hp, BitVec.sub_add_cancel, Memory.read_write_same _ _ _ hwf]
  rfl

/-- `JSR`, then `RTS`. -/
theorem runRts_runJsr (lo : Byte) (hwf : s.ram.wf = true) :
    (runRts (runJsr lo s)).cpu = { s.cpu with pc := s.pc + 1 } := by
  obtain ⟨⟨target, hcpu⟩, hram⟩ := runJsr_spec lo s
  have hs : (runJsr lo s).s = s.s - 2 := congrArg Cpu.s hcpu
  have one : s.s - 2 + 1 = s.s - 1 := by rw [← sub_one_one, BitVec.sub_add_cancel]
  obtain ⟨hi, lo⟩ := read_pushed_two s.s (hi8 s.pc) (lo8 s.pc) s.ram hwf
  rw [runRts_cpu, hcpu, hram, hs, one, BitVec.sub_add_cancel, hi, lo, mk16_hi8_lo8]
  rfl

end

/-- Settles O29: the status byte bit by bit, then each pair of sequences. -/
theorem stackRoundTrips : Obligations.StackRoundTrips := by
  refine ⟨fun f b => ?byte, fun s target hwf => ?pairs⟩
  case byte =>
    obtain ⟨n, v, five, four, d, i, z, c⟩ := f.pushed_bits b
    exact ⟨n, v, five, four, d, i, z, c, f.ofByte_pushed b⟩
  case pairs =>
    exact ⟨⟨_, _, rfl, rfl, runPlp_runPhp s hwf⟩, ⟨_, _, rfl, rfl, runPla_runPha s hwf⟩,
      ⟨_, _, rfl, rfl, runRts_runJsr s _ hwf⟩,
      ⟨_, rfl, (entered_enterHandler false (kept_beforeInterrupt s) hwf).rti⟩,
      ⟨_, _, rfl, rfl, (entered_runBrk s hwf).rti⟩⟩

end Sys2Proof.Machine
end

section
/-! PROOFS about opcodes, operand bytes and the instruction they make (`StepRunsDecoded`). The 256 opcodes are gone
through by row and column of the matrix (30_encoding.md R115). -/

namespace Sys2Proof

/-- An opcode is its row and its column. -/
theorem byte_eq_nibbles (op : Byte) : op = BitVec.ofNat 8 (16 * (op.toNat / 16) + op.toNat % 16) := by
  rw [Nat.div_add_mod, BitVec.ofNat_toNat, BitVec.setWidth_eq]

/-- A row or column of the matrix is one of sixteen. -/
theorem nibble_cases {motive : (n : Nat) → n < 16 → Prop}
    (c0 : motive 0 (by decide)) (c1 : motive 1 (by decide)) (c2 : motive 2 (by decide)) (c3 : motive 3 (by decide))
    (c4 : motive 4 (by decide)) (c5 : motive 5 (by decide)) (c6 : motive 6 (by decide)) (c7 : motive 7 (by decide))
    (c8 : motive 8 (by decide)) (c9 : motive 9 (by decide)) (cA : motive 10 (by decide)) (cB : motive 11 (by decide))
    (cC : motive 12 (by decide)) (cD : motive 13 (by decide)) (cE : motive 14 (by decide)) (cF : motive 15 (by decide)) :
    (n : Nat) → (h : n < 16) → motive n h
  | 0, _ => c0
  | 1, _ => c1
  | 2, _ => c2
  | 3, _ => c3
  | 4, _ => c4
  | 5, _ => c5
  | 6, _ => c6
  | 7, _ => c7
  | 8, _ => c8
  | 9, _ => c9
  | 10, _ => cA
  | 11, _ => cB
  | 12, _ => cC
  | 13, _ => cD
  | 14, _ => cE
  | 15, _ => cF
  | n + 16, h => absurd h (by omega)

/-- The instruction made from an opcode has that opcode. -/
theorem opcode_instrOf (op b1 b2 : Byte) : (instrOf op b1 b2).opcode = op := by
  have hr : op.toNat / 16 < 16 := Nat.div_lt_of_lt_mul op.isLt
  have hc : op.toNat % 16 < 16 := Nat.mod_lt _ (by decide)
  refine Eq.trans ?_ (byte_eq_nibbles op).symm
  unfold instrOf
  generalize op.toNat / 16 = r at *
  generalize op.toNat % 16 = c at *
  cases r, hr using nibble_cases <;> cases c, hc using nibble_cases <;> rfl

/-- An instruction that does not carry two operand bytes does not depend on the second. -/
theorem instrOf_of_not_two {op b1 b2 : Byte} (h : (instrOf op b1 b2).operands.length ≠ 2) :
    instrOf op b1 b2 = instrOf op b1 0 := by
  have hr : op.toNat / 16 < 16 := Nat.div_lt_of_lt_mul op.isLt
  have hc : op.toNat % 16 < 16 := Nat.mod_lt _ (by decide)
  unfold instrOf at h ⊢
  generalize op.toNat / 16 = r at *
  generalize op.toNat % 16 = c at *
  cases r, hr using nibble_cases <;> cases c, hc using nibble_cases <;> trivial

theorem length_opcodeTable : opcodeTable.length = 256 := by
  simp only [opcodeTable, List.length_append]
  rfl

theorem descriptor_eq_getElem (op : Byte) (h : op.toNat < opcodeTable.length) : descriptor op = opcodeTable[op.toNat] := by
  rw [descriptor, List.getD_eq_getElem?_getD, List.getElem?_eq_getElem h, Option.getD_some]

/-- The values of `f` at the sixteen opcodes of row `r`. -/
def rowOf {α : Type} (f : Byte → α) (r : Nat) : List α :=
  (List.range 16).map fun c => f (BitVec.ofNat 8 (16 * r + c))

/-- Two functions of an opcode are equal where they are so row by row. -/
theorem eq_of_rowOf_eq {α : Type} {f g : Byte → α} (h : ∀ r < 16, rowOf f r = rowOf g r) (op : Byte) : f op = g op := by
  have hr : op.toNat / 16 < 16 := Nat.div_lt_of_lt_mul op.isLt
  have hc : op.toNat % 16 < 16 := Nat.mod_lt _ (by decide)
  rw [byte_eq_nibbles op]
  exact List.map_inj_left.mp (h _ hr) _ (List.mem_range.mpr hc)

/-- Sixteen descriptors of the table are a row. -/
theorem rowOf_descriptor {r : Nat} (hr : r < 16) : rowOf descriptor r = (opcodeTable.drop (16 * r)).take 16 := by
  have hlen := length_opcodeTable
  refine List.ext_getElem ?lengths fun c hc _ => ?entry
  case lengths =>
    rw [rowOf, List.length_map, List.length_range, List.length_take, List.length_drop, hlen]
    omega
  case entry =>
    rw [rowOf, List.length_map, List.length_range] at hc
    have index : (BitVec.ofNat 8 (16 * r + c)).toNat = 16 * r + c := by
      rw [BitVec.toNat_ofNat, Nat.mod_eq_of_lt (by omega)]
    simp only [rowOf, List.getElem_map, List.getElem_range, List.getElem_take, List.getElem_drop]
    rw [descriptor_eq_getElem _ (by omega)]
    simp only [index]

/-- An instruction carries as many operand bytes as the mode of its opcode tells (30_encoding.md R111). -/
theorem length_operands_instrOf (op b1 b2 : Byte) : (instrOf op b1 b2).operands.length = operandBytes op := by
  refine eq_of_rowOf_eq (f := fun op => (instrOf op b1 b2).operands.length) (fun r hr => ?_) op
  have table : rowOf operandBytes r = ((opcodeTable.drop (16 * r)).take 16).map fun d => d.mode.length - 1 := by
    rw [← rowOf_descriptor hr, rowOf, rowOf, List.map_map]
    rfl
  rw [table]
  cases r, hr using nibble_cases <;> rfl

/-- JSR, the one mnemonic whose last byte is not fetched beforehand, carries two operand bytes. -/
theorem operandBytes_of_jsr {op : Byte} (h : (descriptor op).kind = .jsr) : operandBytes op = 2 := by
  have inTable : ∀ d ∈ opcodeTable, d.kind = .jsr → d.mode = .abs := by
    simp only [opcodeTable, List.forall_mem_append]
    decide
  have hop : op.toNat < opcodeTable.length := by rw [length_opcodeTable]; exact op.isLt
  have mem : descriptor op ∈ opcodeTable := by
    rw [descriptor_eq_getElem op hop]
    exact List.getElem_mem hop
  rw [operandBytes, inTable _ mem h]
  rfl

/-- An instruction of fewer than two operand bytes is fetched whole. -/
theorem fetchLength_of_ne_two {op : Byte} (h : operandBytes op ≠ 2) : fetchLength op = operandBytes op + 1 := by
  have notJsr : (descriptor op).kind ≠ .jsr := fun e => h (operandBytes_of_jsr e)
  rw [fetchLength, if_neg notJsr, operandBytes]
  cases (descriptor op).mode <;> rfl

/-- One of two operand bytes is fetched whole, or, as JSR, but for its last byte. -/
theorem fetchLength_of_two {op : Byte} (h : operandBytes op = 2) : fetchLength op = 2 ∨ fetchLength op = 3 := by
  unfold fetchLength
  split
  case isTrue => exact .inl rfl
  case isFalse =>
    rw [operandBytes] at h
    omega

/-- What three bytes decode to, by the number of operand bytes of the first (30_encoding.md R110, R111). -/
theorem decode_three {op b1 b2 : Byte} {i : Instr} {rest : List Byte} (h : decode [op, b1, b2] = .ok (i, rest)) :
    (operandBytes op = 0 ∧ i = instrOf op 0 0) ∨ (operandBytes op = 1 ∧ i = instrOf op b1 0) ∨
      (operandBytes op = 2 ∧ i = instrOf op b1 b2) := by
  simp only [decode] at h
  match count : operandBytes op with
  | 0 =>
    rw [count] at h
    cases h
    exact .inl ⟨rfl, rfl⟩
  | 1 =>
    rw [count] at h
    cases h
    exact .inr (.inl ⟨rfl, rfl⟩)
  | 2 =>
    rw [count] at h
    cases h
    exact .inr (.inr ⟨rfl, rfl⟩)
  | n + 3 =>
    rw [count] at h
    cases h

end Sys2Proof
end

section
/-! PROOFS about the fetch of an instruction by bus cycles (`StepRunsDecoded`). -/

namespace Sys2Proof.Machine

/-! ### Fetch cycles -/

/-- `k` fetch cycles move `PC` behind the bytes fetched, and leave everything else alone that bus cycles leave alone. -/
theorem kept_fetchBytes (k : Nat) (s : State) : Kept (s.setPc (s.pc + BitVec.ofNat 16 k)) (fetchBytes k s) := by
  induction k generalizing s with
  | zero =>
    rw [BitVec.add_zero]
    exact Kept.refl s
  | succ k ih =>
    have first := kept_fetchOperand s
    have next : (fetchOperand s).2.pc + BitVec.ofNat 16 k = s.pc + BitVec.ofNat 16 (k + 1) := by
      rw [first.pc, State.setPc_pc, BitVec.add_assoc, Nat.add_comm k 1, BitVec.ofNat_add]
      rfl
    have rest := ih (fetchOperand s).2
    rw [next] at rest
    exact (first.setPc _).trans rest

theorem fetchBytes_pc (k : Nat) (s : State) : (fetchBytes k s).pc = s.pc + BitVec.ofNat 16 k := (kept_fetchBytes k s).pc

/-- Plain memory reads after the fetch cycles as before them. -/
theorem peek_fetchBytes {addr : Word} {s : State} (k : Nat) (h : plainMemory addr s = true) :
    peek addr (fetchBytes k s) = peek addr s :=
  deviceValue_plain addr (s.setPc (s.pc + BitVec.ofNat 16 k)) _ h (kept_fetchBytes k s)

/-- The fetch cycle after `k` others answers the byte at its address, in plain memory. -/
theorem fetchOperand_fetchBytes {s : State} (k : Nat) (h : plainMemory (s.pc + BitVec.ofNat 16 k) s = true) :
    (fetchOperand (fetchBytes k s)).1 = peek (s.pc + BitVec.ofNat 16 k) s := by
  have plain : plainMemory (s.pc + BitVec.ofNat 16 k) (fetchBytes k s) = true :=
    (plainMemory_kept _ (kept_fetchBytes k s)).trans h
  rw [fetchOperand, fetchBytes_pc, busRead_plain _ _ plain, peek_fetchBytes k h]

/-- The opcode fetch answers the byte at `PC`, in plain memory. -/
theorem fetchOperand_plain {s : State} (h : plainMemory s.pc s = true) : (fetchOperand s).1 = peek s.pc s :=
  busRead_plain s.pc s h

/-! ### The instruction they make -/

/-- The fetch of an instruction with no operand fetch after the opcode fetch. -/
theorem fetchInstr_none {s : State} (h : fetchCount (fetchOperand s).1 (fetchOperand s).2 = 0) :
    fetchInstr s = (instrOf (fetchOperand s).1 0 0, fetchBytes 1 s) := by
  simp only [fetchInstr, h]
  rfl

/-- The fetch of an instruction with one operand fetch; the second operand byte is a peek. -/
theorem fetchInstr_one {s : State} (h : fetchCount (fetchOperand s).1 (fetchOperand s).2 = 1) :
    fetchInstr s =
      (instrOf (fetchOperand s).1 (fetchOperand (fetchBytes 1 s)).1 (peek (fetchBytes 2 s).pc (fetchBytes 2 s)),
        fetchBytes 2 s) := by
  simp only [fetchInstr, h]
  rfl

/-- The fetch of an instruction with two operand fetches. -/
theorem fetchInstr_two {s : State} (h : fetchCount (fetchOperand s).1 (fetchOperand s).2 = 2) :
    fetchInstr s =
      (instrOf (fetchOperand s).1 (fetchOperand (fetchBytes 1 s)).1 (fetchOperand (fetchBytes 2 s)).1,
        fetchBytes 3 s) := by
  simp only [fetchInstr, h]
  rfl

/-- How many operand fetches follow, for the opcode at `PC`: the opcode fetch does not change the parameter. -/
theorem fetchCount_fetched {s : State} (h : plainMemory s.pc s = true) :
    fetchCount (fetchOperand s).1 (fetchOperand s).2 = fetchCount (peek s.pc s) s := by
  have params : (fetchOperand s).2.params = s.params := (kept_fetchOperand s).params
  rw [fetchOperand_plain h, fetchCount, fetchCount, params]

/-- An opcode that is not fatal has its operands fetched. -/
theorem fetchCount_of_not_fatal {op : Byte} {s : State} (h : (s.params.unstableFatal && isUnstable op) = false) :
    fetchCount op s = fetchLength op - 1 :=
  if_neg (ne_true_of_eq_false h)

/-- The bytes at `PC`, all in plain memory, are fetched as the instruction they decode to. -/
theorem fetchInstr_decoded {s : State} {i : Instr} {rest : List Byte}
    (hdec : decode [peek s.pc s, peek (s.pc + 1) s, peek (s.pc + 2) s] = .ok (i, rest))
    (hplain : ∀ k < (encode i).length, plainMemory (s.pc + BitVec.ofNat 16 k) s = true)
    (hfatal : (s.params.unstableFatal && isUnstable i.opcode) = false) :
    fetchInstr s = (i, fetchBytes (fetchLength i.opcode) s) := by
  have plain0 : plainMemory s.pc s = true := by
    have first := hplain 0 (Nat.succ_pos _)
    rwa [BitVec.add_zero] at first
  have op0 := fetchOperand_plain plain0
  have length_encode (b1 b2 : Byte) : (encode (instrOf (peek s.pc s) b1 b2)).length = operandBytes (peek s.pc s) + 1 := by
    rw [encode, List.length_cons, length_operands_instrOf]
  rcases decode_three hdec with ⟨count, rfl⟩ | ⟨count, rfl⟩ | ⟨count, rfl⟩
  all_goals
    rw [opcode_instrOf] at hfatal ⊢
    rw [length_encode, count] at hplain
    have fetches := (fetchCount_fetched plain0).trans (fetchCount_of_not_fatal hfatal)
  case inl =>
    have len : fetchLength (peek s.pc s) = 1 := by rw [fetchLength_of_ne_two (by omega), count]
    rw [len] at fetches ⊢
    rw [fetchInstr_none fetches, op0]
  case inr.inl =>
    have len : fetchLength (peek s.pc s) = 2 := by rw [fetchLength_of_ne_two (by omega), count]
    rw [len] at fetches ⊢
    rw [fetchInstr_one fetches, op0, fetchOperand_fetchBytes 1 (hplain 1 (by decide)), instrOf_of_not_two]
    · rfl
    · rw [length_operands_instrOf, count]
      decide
  case inr.inr =>
    have op1 := fetchOperand_fetchBytes 1 (hplain 1 (by decide))
    have plain2 := hplain 2 (by decide)
    rcases fetchLength_of_two count with len | len
    all_goals rw [len] at fetches ⊢
    · rw [fetchInstr_one fetches, op0, op1, fetchBytes_pc, peek_fetchBytes 2 plain2]
      rfl
    · rw [fetchInstr_two fetches, op0, op1, fetchOperand_fetchBytes 2 plain2]
      rfl

/-- An opcode that is fatal has no operand fetched. -/
theorem fetchInstr_fatal {s : State} (hplain : plainMemory s.pc s = true)
    (hfatal : (s.params.unstableFatal && isUnstable (peek s.pc s)) = true) :
    fetchInstr s = (instrOf (peek s.pc s) 0 0, fetchBytes 1 s) := by
  have count : fetchCount (peek s.pc s) s = 0 := if_pos hfatal
  rw [fetchInstr_none ((fetchCount_fetched hplain).trans count), fetchOperand_plain hplain]

/-- The instruction of an unstable opcode halts where the parameter says so. -/
theorem halts_of_isUnstable {s : State} {op : Byte} (hpar : s.params.unstableFatal = true) (hop : isUnstable op = true)
    (b1 b2 : Byte) : Halts s op (instrOf op b1 b2) := by
  simp only [isUnstable, List.contains_eq_mem, List.mem_cons, List.not_mem_nil, or_false, decide_eq_true_eq] at hop
  rcases hop with rfl | rfl | rfl | rfl | rfl | rfl | rfl <;> exact .of_unstable _ hpar rfl rfl

/-! ### The step -/

/-- Settles O24: nothing is serviced, so the step is the fetch and the run; the fetch gives the decoded instruction, or
that of the fatal opcode. -/
theorem stepRunsDecoded : Obligations.StepRunsDecoded := by
  intro s hrun hserv s0
  have run : step s = exec (fetchInstr s0).1 (fetchInstr s0).2 := by
    rw [step_running hrun, serviceInterrupts_of_noService hserv]
  refine ⟨fun i rest hdec hplain hfatal => ?decoded, fun hplain hfatal => ?fatal⟩
  case decoded =>
    intro u
    have k : Kept _ u := kept_fetchBytes (fetchLength i.opcode) s0
    have fetched : fetchInstr s0 = (i, u) := fetchInstr_decoded hdec hplain hfatal
    have held : SameMem s s0 := fun sp _ => by cases sp <;> rfl
    exact ⟨by rw [run, fetched], held.trans k.byteAt, k.cpu⟩
  case fatal =>
    have k := kept_fetchBytes 1 s0
    have fetched : fetchInstr s0 = (instrOf (peek s.pc s) 0 0, fetchBytes 1 s0) := fetchInstr_fatal hplain hfatal
    obtain ⟨hpar, hop⟩ := Bool.and_eq_true_iff.mp hfatal
    obtain ⟨-, halted⟩ := halts_of_isUnstable (k.params ▸ hpar) hop 0 0
    have behind : (fetchBytes 1 s0).pc - 1 = s.pc := by
      rw [fetchBytes_pc]
      exact BitVec.add_sub_cancel _ _
    rw [run, fetched, halted, behind, k.cpu]
    rfl

end Sys2Proof.Machine
end

section
/-! PROOFS about the bus cycle: its steps in their order (`BusCycleOrder`), reads of plain memory
(`PlainReadsEqualPeek`) and of addresses that no device drives (`OpenBusReads`). -/

namespace Sys2Proof.Machine

/-! ### The steps of a bus cycle -/

/-- Steps 3 to 6 of a read (20_memory.md R75): the PPU split is that of any state that bus cycles reach from here. -/
theorem finishRead_kept {s t : State} (k : Kept s t) (addr : Word) :
    finishRead false addr t =
      let w := tickPpus s.params.readSplit.val (captureInterrupts t)
      (deviceValue addr w, pollInterrupts (tickPpus (3 - s.params.readSplit.val) (deviceEffect addr w))) := by
  rw [← k.params]
  rfl

/-- A write to $4014 starts OAM DMA after its bus cycle (61_dma.md R380). -/
theorem busWrite_oamDma {addr : Word} (v : Byte) (s : State) (h : addr.toNat = 0x4014) :
    busWrite addr v s = oamDma v (writeCycle addr v s) := by
  simp only [busWrite, if_pos h]

/-- Settles O30: each cycle is its steps by definition; the split of a read is a parameter, which a DMC stall keeps. -/
theorem busCycleOrder : Obligations.BusCycleOrder := by
  intro s addr v s1 down s2 read write
  have served : Kept s s2 := (kept_cycleStart s).trans (kept_serviceDmc addr s1)
  have counted : Kept s down := (kept_cycleStart s).trans (kept_countDown s1)
  exact ⟨finishRead_kept served addr, finishRead_kept (kept_cycleStart s) addr, finishRead_kept counted addr, rfl,
    fun other => busWrite_of_ne addr v s fun same => other (BitVec.eq_of_toNat_eq same),
    fun dma => busWrite_oamDma v s (congrArg BitVec.toNat dma)⟩

/-! ### Plain memory -/

/-- Settles O32: whatever stall the read takes, it reaches the device with registers and memories as they were. -/
theorem plainReadsEqualPeek : Obligations.PlainReadsEqualPeek := by
  intro s addr plain r
  have kept : Kept s r.2 := kept_busRead addr s
  have first : r.1 = peek addr s := busRead_plain addr s plain
  have stillPlain : plainMemory addr r.2 = true := (plainMemory_kept addr kept).trans plain
  have second : (busRead addr r.2).1 = peek addr s :=
    (busRead_plain addr r.2 stillPlain).trans (deviceValue_plain addr s r.2 plain kept)
  exact ⟨first, kept.cpu, kept.byteAt, second.trans first.symm⟩

/-! ### Open bus -/

/-- What a read leaves where no device drives the bus: the draw is used up and nothing else changes. -/
def ReadsOpenBus (addr : Word) (s : State) : Prop :=
  deviceValue addr s = drawn s ∧ deviceEffect addr s = bumpDraw s

/-- The addresses of the picture unit's eight registers and their mirrors, $2000 to $3FFF (20_memory.md R79). -/
def InPpuRegs (addr : Word) : Prop := 0x2000 ≤ addr.toNat ∧ addr.toNat < 0x4000

/-- An access in $2000 to $3FFF is one of the register that the low three address bits select. -/
theorem device_ppuReg {addr : Word} (h : InPpuRegs addr) (v : Byte) (s : State) :
    deviceValue addr s = ppuRegValue (addr.toNat % 8) s ∧ deviceEffect addr s = ppuRegEffect (addr.toNat % 8) s ∧
      deviceWrite addr v s = ppuRegWrite (addr.toNat % 8) v s := by
  obtain ⟨above, below⟩ := h
  have notRam : ¬ addr.toNat < 0x2000 := by omega
  simp only [deviceValue, deviceEffect, deviceWrite, if_neg notRam, if_pos below, and_self]

/-- The write-only registers of the picture unit answer no read. -/
theorem readsOpenBus_ppuReg {addr : Word} (s : State) (h : InPpuRegs addr)
    (writeOnly : addr.toNat % 8 ∈ [0, 1, 3, 5, 6]) : ReadsOpenBus addr s := by
  obtain ⟨value, effect, -⟩ := device_ppuReg h 0 s
  rw [ReadsOpenBus, value, effect]
  simp only [List.mem_cons, List.not_mem_nil, or_false] at writeOnly
  rcases writeOnly with reg | reg | reg | reg | reg <;> rw [reg] <;> exact ⟨rfl, rfl⟩

/-- $4000 to $401F answers at $4015, $4016 and $4017 only. -/
theorem readsOpenBus_io {addr : Word} (s : State) (above : 0x4000 ≤ addr.toNat) (below : addr.toNat < 0x4020)
    (silent : addr.toNat < 0x4015 ∨ 0x4017 < addr.toNat) : ReadsOpenBus addr s := by
  constructor
  · rw [deviceValue, if_neg (by omega), if_neg (by omega), if_neg (by omega), if_neg (by omega), if_neg (by omega),
      if_pos below]
  · rw [deviceEffect, if_neg (by omega), if_neg (by omega), if_neg (by omega), if_neg (by omega), if_neg (by omega),
      if_pos below]

/-- From $4020 on the bus is open where the cartridge maps nothing. -/
theorem readsOpenBus_cart {addr : Word} (s : State) (above : 0x4020 ≤ addr.toNat)
    (unmapped : s.cart.cpuRead addr = none) : ReadsOpenBus addr s := by
  constructor
  · rw [deviceValue_cart addr s above, unmapped, Option.getD_none]
  · rw [deviceEffect, if_neg (by omega), if_neg (by omega), if_neg (by omega), if_neg (by omega), if_neg (by omega),
      if_neg (by omega), unmapped]
    rfl

/-- Below cartridge RAM the cartridge ignores a write (64_cartridge_mappers.md R578). -/
theorem Cart.cpuWrite_belowRam {addr : Word} (h : addr.toNat < 0x6000) (now : Nat) (v : Byte) (c : Cart) :
    c.cpuWrite now addr v = c :=
  if_pos h

/-- Writes that no device takes: $4018 to $5FFF. -/
theorem deviceWrite_unmapped {addr : Word} (v : Byte) (s : State) (above : 0x4018 ≤ addr.toNat)
    (below : addr.toNat < 0x6000) : deviceWrite addr v s = s := by
  by_cases io : addr.toNat < 0x4020
  · rw [deviceWrite, if_neg (by omega), if_neg (by omega), if_neg (by omega), if_neg (by omega), if_neg (by omega),
      if_neg (by omega), if_pos io]
  · rw [deviceWrite_cart addr v s (by omega), Cart.cpuWrite_belowRam below]

/-- Settles O33: reads by the ranges that no device drives, writes by the two that none takes. -/
theorem openBusReads : Obligations.OpenBusReads := by
  intro s addr v
  refine ⟨fun undriven => ?reads, fun ignored => ?writes⟩
  case reads =>
    change ReadsOpenBus addr s
    rcases undriven with ⟨above, below⟩ | ⟨above, below⟩ | ⟨above, below, writeOnly⟩ | ⟨above, unmapped⟩
    · exact readsOpenBus_io s above (by omega) (by omega)
    · exact readsOpenBus_io s (by omega) (by omega) (by omega)
    · exact readsOpenBus_ppuReg s ⟨above, below⟩ writeOnly
    · exact readsOpenBus_cart s above unmapped
  case writes =>
    rcases ignored with ⟨above, below⟩ | ⟨above, below, status⟩
    · exact deviceWrite_unmapped v s above below
    · obtain ⟨-, -, write⟩ := device_ppuReg ⟨above, below⟩ v s
      rw [write, status]
      rfl

end Sys2Proof.Machine
end

section
/-! PROOFS about the writes to the registers of the picture unit (`PpuRegisterWrites`) and its data port
(`PpuDataPort`). -/

namespace Sys2Proof.Machine

/-! ### Bit fields -/

/-- A field as a number. -/
theorem toNat_field {w : Nat} (v : BitVec w) (lo n : Nat) : (field v lo n).toNat = v.toNat / 2 ^ lo % 2 ^ n := by
  rw [field, BitVec.extractLsb'_toNat, Nat.shiftRight_eq_div_pow]

/-- The low bits as a number. -/
theorem toNat_field_low {w : Nat} (v : BitVec w) (n : Nat) : (field v 0 n).toNat = v.toNat % 2 ^ n := by
  rw [toNat_field, Nat.pow_zero, Nat.div_one]

/-- The bits of a value with one field replaced. -/
theorem getLsbD_setField {w n : Nat} (v : BitVec w) (lo : Nat) (f : BitVec n) (i : Nat) :
    (setField v lo f).getLsbD i = if lo ≤ i ∧ i < lo + n ∧ i < w then f.getLsbD (i - lo) else v.getLsbD i := by
  simp only [setField, BitVec.getLsbD_or, BitVec.getLsbD_and, BitVec.getLsbD_not, BitVec.getLsbD_shiftLeft,
    BitVec.getLsbD_setWidth, BitVec.getLsbD_allOnes]
  grind

/-- The fields of `t` that PPUCTRL, PPUSCROLL and PPUADDR replace, as concatenations of what is kept and what is new,
high bits first (62_ppu.md R429, R436, R438). -/
theorem setField_scroll (t : BitVec 15) (d : Byte) :
    setField t 10 (field d 0 2) = t.extractLsb' 12 3 ++ d.extractLsb' 0 2 ++ t.extractLsb' 0 10 ∧
    setField t 0 (field d 3 5) = t.extractLsb' 5 10 ++ d.extractLsb' 3 5 ∧
    setField (setField t 12 (field d 0 3)) 5 (field d 3 5) =
      d.extractLsb' 0 3 ++ t.extractLsb' 10 2 ++ d.extractLsb' 3 5 ++ t.extractLsb' 0 5 ∧
    setField (setField t 8 (field d 0 6)) 14 (0#1) = 0#1 ++ d.extractLsb' 0 6 ++ t.extractLsb' 0 8 ∧
    setField t 0 d = t.extractLsb' 8 7 ++ d := by
  refine ⟨?nametable, ?coarseX, ?fineY, ?high, ?low⟩
  all_goals
    refine BitVec.eq_of_getLsbD_eq fun i hi => ?_
    simp only [getLsbD_setField, field, BitVec.getLsbD_append, BitVec.getLsbD_extractLsb']
    grind

/-- The low bits of a PPU address register are the address on the picture unit's bus. -/
theorem setWidth_ppuAddr (v : BitVec 15) : v.setWidth 14 = v.extractLsb' 0 14 :=
  BitVec.setWidth_eq_extractLsb' (by decide)

/-- The bits of a palette read through $2007: the entry below two drawn bits (62_ppu.md R437). -/
theorem overlay_palette (entry : BitVec 6) (d : Byte) :
    (overlay 0x3F#8 (entry.setWidth 8) d).extractLsb' 0 6 = entry ∧
      (overlay 0x3F#8 (entry.setWidth 8) d).extractLsb' 6 2 = d.extractLsb' 6 2 := by
  refine ⟨BitVec.eq_of_getLsbD_eq fun i hi => ?entry, BitVec.eq_of_getLsbD_eq fun i hi => ?drawn⟩
  case entry =>
    match i, hi with
    | 0, _ | 1, _ | 2, _ | 3, _ | 4, _ | 5, _ => simp [overlay]
  case drawn =>
    match i, hi with
    | 0, _ | 1, _ => simp [overlay]

/-- Bits 4:2 are dropped from the bytes with index 2 modulo 4 (62_ppu.md R423). -/
theorem oamKeep_eq (i d : Byte) : oamKeep i d = if i.toNat % 4 = 2 then d &&& 0xE3 else d := by
  have thirdOfFour : field i 0 2 = 2 ↔ i.toNat % 4 = 2 := by
    rw [← BitVec.toNat_inj, toNat_field_low]
    rfl
  simp only [oamKeep, thirdOfFour]
  rfl

/-! ### The write registers -/

/-- A write in $2000 to $3FFF, by the register it selects. -/
theorem deviceWrite_ppuReg {addr : Word} {r : Nat} (h : InPpuRegs addr) (reg : addr.toNat % 8 = r) (v : Byte)
    (s : State) : deviceWrite addr v s = ppuRegWrite r v s := by
  obtain ⟨-, -, write⟩ := device_ppuReg h v s
  rw [write, reg]

/-- Before the warm-up has ended PPUCTRL, PPUMASK, PPUSCROLL and PPUADDR ignore writes (62_ppu.md R428). -/
theorem ppuRegWrite_cold {s : State} (cold : s.cycles < warmUpCycles) (v : Byte) {r : Nat} (hr : r ∈ [0, 1, 5, 6]) :
    ppuRegWrite r v s = s := by
  simp only [List.mem_cons, List.not_mem_nil, or_false] at hr
  rcases hr with rfl | rfl | rfl | rfl
  · simp only [ppuRegWrite, Ppu.writeCtrl, if_pos cold]
  · simp only [ppuRegWrite, Ppu.writeMask, if_pos cold]
  · simp only [ppuRegWrite, Ppu.writeScroll, if_pos cold]
  · simp only [ppuRegWrite, Ppu.writeAddr, if_pos cold]

/-- PPUCTRL once warm. -/
theorem Ppu.writeCtrl_warm {now : Nat} (warm : ¬ now < warmUpCycles) (d : Byte) (p : Ppu) :
    p.writeCtrl now d =
      { p with ctrl := d, t := p.t.extractLsb' 12 3 ++ d.extractLsb' 0 2 ++ p.t.extractLsb' 0 10 } := by
  obtain ⟨nametable, -⟩ := setField_scroll p.t d
  rw [Ppu.writeCtrl, if_neg warm, nametable]

/-- PPUMASK once warm. -/
theorem Ppu.writeMask_warm {now : Nat} (warm : ¬ now < warmUpCycles) (d : Byte) (p : Ppu) :
    p.writeMask now d = { p with mask := d } :=
  if_neg warm

/-- PPUSCROLL once warm, by the write toggle. -/
theorem Ppu.writeScroll_warm {now : Nat} (warm : ¬ now < warmUpCycles) (d : Byte) (p : Ppu) :
    p.writeScroll now d =
      if p.w then
        { p with
          t := d.extractLsb' 0 3 ++ p.t.extractLsb' 10 2 ++ d.extractLsb' 3 5 ++ p.t.extractLsb' 0 5, w := false }
      else { p with t := p.t.extractLsb' 5 10 ++ d.extractLsb' 3 5, fineX := d.extractLsb' 0 3, w := true } := by
  obtain ⟨-, coarseX, fineY, -⟩ := setField_scroll p.t d
  rw [Ppu.writeScroll, if_neg warm, coarseX, fineY]
  rfl

/-- PPUADDR once warm, by the write toggle; the second write shows the address on the bus unless rendering is active. -/
theorem Ppu.writeAddr_warm {now : Nat} (warm : ¬ now < warmUpCycles) (d : Byte) (p : Ppu) (c : Cart) :
    p.writeAddr now d c =
      if p.w then
        ({ p with t := p.t.extractLsb' 8 7 ++ d, v := p.t.extractLsb' 8 7 ++ d, w := false },
          if p.renderingActive then c else c.setPpuAddress now ((p.t.extractLsb' 8 7 ++ d).extractLsb' 0 14))
      else ({ p with t := 0#1 ++ d.extractLsb' 0 6 ++ p.t.extractLsb' 0 8, w := true }, c) := by
  obtain ⟨-, -, -, high, low⟩ := setField_scroll p.t d
  simp only [Ppu.writeAddr, if_neg warm, high, low, setWidth_ppuAddr]

/-- Settles O43: the register that the address selects, then the register's own law. -/
theorem ppuRegisterWrites : Obligations.PpuRegisterWrites := by
  intro s addr d above below p with_
  have write {r : Nat} (reg : addr.toNat % 8 = r) := deviceWrite_ppuReg ⟨above, below⟩ reg d s
  refine ⟨fun cold reg => ?cold, fun warm => ?warm, fun reg => ?oamAddr, fun reg active => ?oamRendering,
    fun reg idle => ?oamData⟩
  case cold => rw [write rfl, ppuRegWrite_cold cold d reg]
  case oamAddr =>
    rw [write reg]
    rfl
  case oamRendering =>
    rw [write reg, ppuRegWrite, Ppu.writeOamData, if_pos active]
  case oamData =>
    rw [write reg, ppuRegWrite, Ppu.writeOamData, if_neg (ne_true_of_eq_false idle), oamKeep_eq]
  case warm =>
    have warm : ¬ s.cycles < warmUpCycles := Nat.not_lt_of_le warm
    refine ⟨fun reg => ?ctrl, fun reg => ?mask, fun reg first => ?scroll1, fun reg second => ?scroll2,
      fun reg first => ?addr1, fun reg second => ?addr2⟩
    case ctrl => rw [write reg, ppuRegWrite, Ppu.writeCtrl_warm warm]
    case mask => rw [write reg, ppuRegWrite, Ppu.writeMask_warm warm]
    case scroll1 => rw [write reg, ppuRegWrite, Ppu.writeScroll_warm warm, if_neg (ne_true_of_eq_false first)]
    case scroll2 => rw [write reg, ppuRegWrite, Ppu.writeScroll_warm warm, if_pos second]
    case addr1 => rw [write reg, ppuRegWrite, Ppu.writeAddr_warm warm, if_neg (ne_true_of_eq_false first)]
    case addr2 =>
      rw [write reg, ppuRegWrite, Ppu.writeAddr_warm warm, if_pos second]

/-! ### The data port -/

/-- `v` after an access to $2007 (62_ppu.md R440). -/
def Ppu.nextV (p : Ppu) : BitVec 15 :=
  if p.renderingActive then incY (incX p.v) else p.v + (if p.ctrl.getLsbD 2 then 32 else 1)

/-- `IncrementV`: `v` moves on, and stands on the bus unless rendering is active. -/
theorem Ppu.incrementV_eq (now : Nat) (p : Ppu) (c : Cart) :
    p.incrementV now c =
      ({ p with v := p.nextV }, if p.renderingActive then c else c.setPpuAddress now (p.nextV.extractLsb' 0 14)) := by
  cases active : p.renderingActive with
  | true =>
    rw [Ppu.incrementV, Ppu.nextV, active]
    rfl
  | false =>
    rw [Ppu.incrementV, Ppu.nextV, active, ← setWidth_ppuAddr]
    rfl

/-- The effect of a $2007 read: drive the address, or under the palette that of the nametable byte there; fill the
buffer; move on. -/
theorem Ppu.readData_eq (now : Nat) (p : Ppu) (c : Cart) :
    let a : BitVec 14 := p.v.extractLsb' 0 14
    let under : BitVec 14 := if a.toNat < 0x3F00 then a else a &&& 0x2FFF
    p.readData now c = Ppu.incrementV now { p with readBuffer := p.peek c under } (c.setPpuAddress now under) := by
  rw [Ppu.readData, setWidth_ppuAddr]
  rfl

/-- The value of a $2007 read below the palette. -/
theorem Ppu.dataValue_buffered {p : Ppu} (h : (p.v.extractLsb' 0 14).toNat < 0x3F00) (d : Byte) :
    p.dataValue d = p.readBuffer := by
  simp only [Ppu.dataValue, setWidth_ppuAddr, if_pos h]

/-- The value of a $2007 read of the palette. -/
theorem Ppu.dataValue_palette {p : Ppu} (h : 0x3F00 ≤ (p.v.extractLsb' 0 14).toNat) (d : Byte) :
    p.dataValue d =
      overlay 0x3F#8 ((p.paletteRead ((p.v.extractLsb' 0 14).extractLsb' 0 5)).setWidth 8) d := by
  simp only [Ppu.dataValue, setWidth_ppuAddr, if_neg (Nat.not_lt_of_le h)]
  rfl

/-- A store on the picture unit's bus, by the map of 20_memory.md R93. -/
theorem Ppu.busWrite_cases (now : Nat) (a : BitVec 14) (d : Byte) (p : Ppu) (c : Cart) :
    (a.toNat < 0x2000 → p.busWrite now a d c = (p, (c.setPpuAddress now a).chrWrite a.toNat d)) ∧
    (0x2000 ≤ a.toNat → a.toNat < 0x3F00 → p.busWrite now a d c =
      ({ p with ntRam := p.ntRam.write (ntIndex c.mirroring a) d }, c.setPpuAddress now a)) ∧
    (0x3F00 ≤ a.toNat → p.busWrite now a d c =
      (p.paletteWrite (a.extractLsb' 0 5) (d.extractLsb' 0 6), c.setPpuAddress now a)) := by
  refine ⟨fun pattern => if_pos pattern, fun above below => ?nametable, fun palette => ?palette⟩
  case nametable => simp only [Ppu.busWrite, if_neg (Nat.not_lt_of_le above), if_pos below]
  case palette =>
    rw [Ppu.busWrite, if_neg (show ¬ a.toNat < 0x2000 by omega), if_neg (Nat.not_lt_of_le palette)]
    rfl

/-- A write through $2007 in which the store on the bus gives `q`. -/
theorem ppuRegWrite_data {s : State} {d : Byte} {q : Ppu × Cart}
    (store : s.ppu.busWrite s.cycles (s.ppu.v.extractLsb' 0 14) d s.cart = q) :
    ppuRegWrite 7 d s =
      { s with ppu := (q.1.incrementV s.cycles q.2).1, cart := (q.1.incrementV s.cycles q.2).2 } := by
  simp only [ppuRegWrite, Ppu.writeData, setWidth_ppuAddr, store]

/-- Settles O44: the port's value, effect and store by the address in `v`, each followed by the same increment. -/
theorem ppuDataPort : Obligations.PpuDataPort := by
  intro s addr d above below reg p a under v stepped
  obtain ⟨value, effect, write⟩ := device_ppuReg ⟨above, below⟩ d s
  obtain ⟨storePattern, storeNametable, storePalette⟩ := Ppu.busWrite_cases s.cycles a d p s.cart
  rw [value, effect, write, reg]
  refine ⟨fun buffered => Ppu.dataValue_buffered buffered (drawn s), fun palette => ?value, ?effect,
    fun pattern => ?pattern, fun low high => ?nametable, fun palette => ?palette⟩
  case value =>
    rw [ppuRegValue, Ppu.dataValue_palette palette]
    exact overlay_palette _ _
  case effect =>
    rw [ppuRegEffect, Ppu.readData_eq, Ppu.incrementV_eq]
    rfl
  case pattern =>
    rw [ppuRegWrite_data (storePattern pattern), Ppu.incrementV_eq]
    rfl
  case nametable =>
    rw [ppuRegWrite_data (storeNametable low high), Ppu.incrementV_eq]
    rfl
  case palette =>
    rw [ppuRegWrite_data (storePalette palette), Ppu.incrementV_eq]
    rfl

end Sys2Proof.Machine
end

section
/-! PROOFS about the picture unit's own bus: nametable mirroring and the mirrors of the palette (`PpuBusMirrors`). -/

namespace Sys2Proof.Machine

/-! ### Nametables -/

/-- The place in nametable RAM is the bank of the address's table, then the offset in it (64_cartridge_mappers.md
R576). -/
theorem ntIndex_eq (mi : Mirroring) (a : BitVec 14) :
    ntIndex mi a = 1024 * ntBank mi (a.toNat / 1024 % 4) + a.toNat % 1024 := by
  rw [ntIndex, Nat.mod_mod_of_dvd a.toNat (by decide : 1024 ∣ 4096),
    show a.toNat % 4096 / 1024 = a.toNat / 1024 % 4 by omega]

/-- Below the nametables a byte is one of the cartridge's pattern memory. -/
theorem Ppu.peek_pattern {a : BitVec 14} (h : a.toNat < 0x2000) (p : Ppu) (c : Cart) : p.peek c a = c.chrRead a.toNat :=
  if_pos h

/-- `a` is a nametable address, $2000 to $3EFF (20_memory.md R93). -/
def InNametables (a : BitVec 14) : Prop := 0x2000 ≤ a.toNat ∧ a.toNat < 0x3F00

/-- The byte at a nametable address. -/
theorem Ppu.peek_nametable {a : BitVec 14} (h : InNametables a) (p : Ppu) (c : Cart) :
    p.peek c a = p.ntRam.read (ntIndex c.mirroring a) := by
  obtain ⟨above, below⟩ := h
  rw [Ppu.peek, if_neg (Nat.not_lt_of_le above), if_pos below]

/-- A store to a nametable address is read back at the addresses of the same index, and there only. -/
theorem Ppu.peek_busWrite_nametable {a b : BitVec 14} (ha : InNametables a) (hb : InNametables b) {p : Ppu}
    (wf : p.ntRam.wf) (now : Nat) (d : Byte) (c : Cart) :
    (p.busWrite now a d c).1.peek (p.busWrite now a d c).2 b =
      if ntIndex c.mirroring b = ntIndex c.mirroring a then d else p.peek c b := by
  obtain ⟨-, store, -⟩ := Ppu.busWrite_cases now a d p c
  rw [store ha.1 ha.2, Ppu.peek_nametable hb, Ppu.peek_nametable hb, (Cart.same_setPpuAddress now a c).mirroring,
    Memory.read_write _ _ _ _ wf]

/-! ### The palette -/

/-- Entries $10, $14, $18 and $1C are those 16 below (20_memory.md R95). -/
theorem paletteIndex_eq (i : BitVec 5) :
    paletteIndex i = if i = 0x10 ∨ i = 0x14 ∨ i = 0x18 ∨ i = 0x1C then i - 0x10 else i := by
  revert i
  decide

/-- A store to a palette entry is read back at the entries that select the same one, and there only. -/
theorem Ppu.paletteRead_paletteWrite (p : Ppu) (i j : BitVec 5) (v : BitVec 6) :
    (p.paletteWrite i v).paletteRead j = if paletteIndex j = paletteIndex i then v else p.paletteRead j := by
  simp only [Ppu.paletteRead, Ppu.paletteWrite, Vector.getElem_set, BitVec.toNat_inj, eq_comm]

/-- Settles O50: the index by the five mirrorings, then reads after writes of nametable RAM and of the palette. -/
theorem ppuBusMirrors : Obligations.PpuBusMirrors := by
  intro p c now a b d i j v
  refine ⟨?horizontal, ?vertical, ?singleLow, ?singleHigh, ?fourScreen, fun above below => ?read,
    fun aboveA belowA aboveB belowB wf => ?write, paletteIndex_eq i, Ppu.paletteRead_paletteWrite p i j v⟩
  case read => exact Ppu.peek_nametable ⟨above, below⟩ p c
  case write => exact Ppu.peek_busWrite_nametable ⟨aboveA, belowA⟩ ⟨aboveB, belowB⟩ wf now d c
  case singleLow => rw [ntIndex_eq, ntBank, Nat.mul_zero, Nat.zero_add]
  case singleHigh => rw [ntIndex_eq, ntBank, Nat.mul_one]
  case horizontal | vertical | fourScreen =>
    rw [ntIndex_eq, ntBank]
    omega

end Sys2Proof.Machine
end

section
/-! PROOFS about where the mapper variants find an address in their ROM, and the reads and writes that reach it there
(`BankMapping`). -/

namespace Sys2Proof.Machine

/-! ### Banks -/

/-- Bank arithmetic over a whole number of banks (64_cartridge_mappers.md R577). -/
theorem bankIndex_whole {total size banks : Nat} (count : total / size = banks) (pos : 0 < banks) (b offset : Nat) :
    bankIndex total size b offset = some (b % banks * size + offset) := by
  rw [bankIndex, count, if_neg (Nat.ne_of_gt pos)]

/-- PRG ROM as a number of 16 KiB, 32 KiB and 8 KiB banks. -/
theorem Cart.prgSize_banks (c : Cart) :
    c.prgSize / 0x4000 = c.prgBanks16 ∧ c.prgSize / 0x8000 = c.prgBanks16 / 2 ∧
      c.prgSize / 0x2000 = 2 * c.prgBanks16 := by
  unfold Cart.prgSize
  omega

/-- Pattern memory in units of 8 KiB; pattern RAM is one of them. -/
def Cart.chrUnits (c : Cart) : Nat := if c.chrBanks8 = 0 then 1 else c.chrBanks8

theorem Cart.chrUnits_pos (c : Cart) : 0 < c.chrUnits := by
  unfold Cart.chrUnits
  split <;> omega

/-- Pattern memory as a number of 8 KiB, 4 KiB and 1 KiB banks. -/
theorem Cart.chrSize_banks (c : Cart) :
    c.chrSize / 0x2000 = c.chrUnits ∧ c.chrSize / 0x1000 = 2 * c.chrUnits ∧ c.chrSize / 0x400 = 8 * c.chrUnits := by
  unfold Cart.chrSize Cart.chrUnits
  split <;> omega

/-! ### Program ROM -/

/-- UxROM switches $8000 and fixes the last bank at $C000 (R585). -/
theorem prgUxrom_eq {total n : Nat} (count : total / 0x4000 = n) (hn : 0 < n) (bank : Byte) (a : Nat) :
    prgUxrom total bank a = some
      (if a < 0xC000 then bank.toNat % n * 16384 + (a - 0x8000) else (n - 1) * 16384 + (a - 0xC000)) := by
  have last : (n - 1) % n = n - 1 := Nat.mod_eq_of_lt (by omega)
  simp only [prgUxrom, bankIndex_whole count hn, count, last]
  split <;> rfl

/-- MMC1 in its two 16 KiB modes (R594). -/
theorem prgMmc1_16K {total n : Nat} (count : total / 0x4000 = n) (hn : 0 < n) (m : Mmc1) (a : Nat) :
    ((field m.control 2 2).toNat = 3 → prgMmc1 total m a = some
      (if a < 0xC000 then m.prg.toNat % 16 % n * 16384 + (a - 0x8000) else (n - 1) * 16384 + (a - 0xC000))) ∧
    ((field m.control 2 2).toNat = 2 → prgMmc1 total m a = some
      (if a < 0xC000 then a - 0x8000 else m.prg.toNat % 16 % n * 16384 + (a - 0xC000))) := by
  have last : (n - 1) % n = n - 1 := Nat.mod_eq_of_lt (by omega)
  have bank : (field m.prg 0 4).toNat = m.prg.toNat % 16 := toNat_field_low m.prg 4
  refine ⟨fun mode => ?fixLast, fun mode => ?fixFirst⟩
  case fixLast =>
    have mode : field m.control 2 2 = 3 := BitVec.eq_of_toNat_eq mode
    rw [prgMmc1, if_neg (by rw [mode]; decide), if_pos mode]
    simp only [bankIndex_whole count hn, count, last, bank]
    split <;> rfl
  case fixFirst =>
    have mode : field m.control 2 2 = 2 := BitVec.eq_of_toNat_eq mode
    rw [prgMmc1, if_pos mode]
    simp only [bankIndex_whole count hn, bank, Nat.zero_mod, Nat.zero_mul, Nat.zero_add]
    split <;> rfl

/-- MMC1 in its 32 KiB modes, over at least one whole bank (R594). -/
theorem prgMmc1_32K {total k : Nat} (count : total / 0x8000 = k) (hk : 0 < k) {m : Mmc1}
    (mode : (field m.control 2 2).toNat < 2) (a : Nat) :
    prgMmc1 total m a = some (m.prg.toNat % 16 / 2 % k * 32768 + (a - 0x8000)) := by
  have bank : (field m.prg 1 3).toNat = m.prg.toNat % 16 / 2 := by
    rw [toNat_field]
    omega
  have other {x : BitVec 2} (h : 2 ≤ x.toNat) : field m.control 2 2 ≠ x := by
    rintro rfl
    omega
  rw [prgMmc1, if_neg (other (by decide)), if_neg (other (by decide)), bankIndex_whole count hk, bank]

/-- MMC3's 8 KiB windows (R608). -/
theorem prgMmc3_eq {total n : Nat} (count : total / 0x2000 = 2 * n) (hn : 0 < n) (m : Mmc3) (a : Nat) :
    let swap := m.select.getLsbD 6
    let r6 := m.r[6].toNat % 64
    let bank :=
      if a < 0xA000 then (if swap then 2 * n - 2 else r6)
      else if a < 0xC000 then m.r[7].toNat % 64
      else if a < 0xE000 then (if swap then r6 else 2 * n - 2)
      else 2 * n - 1
    prgMmc3 total m a = some (bank % (2 * n) * 8192 + a % 8192) := by
  have low (r : Byte) : (field r 0 6).toNat = r.toNat % 64 := toNat_field_low r 6
  simp only [prgMmc3, bankIndex_whole count (show 0 < 2 * n by omega), mmc3PrgBank, count, low]
  rfl

/-! ### Pattern memory -/

/-- MMC1's pattern banks (R595). -/
theorem chrMmc1_eq {total n : Nat} (count8 : total / 0x2000 = n) (count4 : total / 0x1000 = 2 * n) (hn : 0 < n)
    (m : Mmc1) (a : Nat) :
    chrMmc1 total m a = some
      (if m.control.getLsbD 4 = false then m.chr0.toNat / 2 % n * 8192 + a
        else if a < 0x1000 then m.chr0.toNat % (2 * n) * 4096 + a
        else m.chr1.toNat % (2 * n) * 4096 + (a - 0x1000)) := by
  have pair : (field m.chr0 1 4).toNat = m.chr0.toNat / 2 := by
    rw [toNat_field]
    omega
  have hn2 : 0 < 2 * n := by omega
  simp only [chrMmc1, bankIndex_whole count8 hn, bankIndex_whole count4 hn2, pair]
  cases m.control.getLsbD 4
  · rfl
  · simp only [if_true, Bool.true_eq_false, if_false]
    split <;> rfl

/-- A byte with bit 0 replaced, as a number. -/
theorem toNat_append_bit (r : Byte) (b : Bool) : (field r 1 7 ++ bit b).toNat = r.toNat / 2 * 2 + b.toNat := by
  have high : (field r 1 7).toNat = r.toNat / 2 := by
    rw [toNat_field]
    omega
  rw [BitVec.toNat_append, ← Nat.shiftLeft_add_eq_or_of_lt (bit b).isLt, Nat.shiftLeft_eq, high, bit,
    BitVec.toNat_ofBool, Nat.pow_one]

/-- The two 1 KiB banks of a 2 KiB register of MMC3. -/
theorem mmc3_pair (r : Byte) : (r &&& 0xFE#8).toNat = r.toNat / 2 * 2 ∧ (r ||| 1#8).toNat = r.toNat / 2 * 2 + 1 := by
  have even : r &&& 0xFE#8 = field r 1 7 ++ bit false := BitVec.eq_of_getLsbD_eq fun i hi => ?even
  have odd : r ||| 1#8 = field r 1 7 ++ bit true := BitVec.eq_of_getLsbD_eq fun i hi => ?odd
  · exact ⟨by rw [even, toNat_append_bit]; rfl, by rw [odd, toNat_append_bit]; rfl⟩
  all_goals
    simp only [BitVec.getLsbD_and, BitVec.getLsbD_or, BitVec.getLsbD_append, field, BitVec.getLsbD_extractLsb']
    match i, hi with
    | 0, _ | 1, _ | 2, _ | 3, _ | 4, _ | 5, _ | 6, _ | 7, _ => simp [bit]

/-- MMC3's 1 KiB bank of an uninverted window, as an entry of the table of R609. -/
theorem mmc3ChrBank_eq (m : Mmc3) {w : Nat} (h : w < 8) :
    mmc3ChrBank m w =
      [m.r[0].toNat / 2 * 2, m.r[0].toNat / 2 * 2 + 1, m.r[1].toNat / 2 * 2, m.r[1].toNat / 2 * 2 + 1,
        m.r[2].toNat, m.r[3].toNat, m.r[4].toNat, m.r[5].toNat].getD w 0 := by
  obtain ⟨even0, odd0⟩ := mmc3_pair m.r[0]
  obtain ⟨even1, odd1⟩ := mmc3_pair m.r[1]
  match w, h with
  | 0, _ => exact even0
  | 1, _ => exact odd0
  | 2, _ => exact even1
  | 3, _ => exact odd1
  | 4, _ | 5, _ | 6, _ | 7, _ => rfl

/-- MMC3's pattern banks: `select[7]` exchanges the two halves (R609). -/
theorem chrMmc3_eq {total n : Nat} (count : total / 0x400 = 8 * n) (hn : 0 < n) (m : Mmc3) {a : Nat}
    (ha : a < 0x2000) :
    let w := if m.select.getLsbD 7 then (a / 1024 + 4) % 8 else a / 1024
    let bank := [m.r[0].toNat / 2 * 2, m.r[0].toNat / 2 * 2 + 1, m.r[1].toNat / 2 * 2, m.r[1].toNat / 2 * 2 + 1,
      m.r[2].toNat, m.r[3].toNat, m.r[4].toNat, m.r[5].toNat].getD w 0
    chrMmc3 total m a = some (bank % (8 * n) * 1024 + a % 1024) := by
  intro w bank
  have window : w < 8 := by
    unfold w
    split <;> omega
  rw [chrMmc3, bankIndex_whole count (by omega)]
  exact congrArg (fun b => some (b % (8 * n) * 1024 + a % 1024)) (mmc3ChrBank_eq m window)

/-! ### Reads and writes at the place found -/

/-- From $8000 on a write goes to the variant's registers (R578). -/
theorem Cart.cpuWrite_register {a : Word} (h : 0x8000 ≤ a.toNat) (now : Nat) (v : Byte) (c : Cart) :
    c.cpuWrite now a v = c.writeRegister now a v := by
  rw [Cart.cpuWrite, if_neg (by omega), if_neg (by omega)]

/-- A CPU read from $8000 on is of program ROM, at the place the mapper finds (R578). -/
theorem Cart.cpuRead_prgRom {a : Word} (h : 0x8000 ≤ a.toNat) {c : Cart} {k : Nat}
    (place : c.prgIndex a.toNat = some k) : c.cpuRead a = some (c.prgRom.read k) := by
  rw [Cart.cpuRead, if_neg (by omega), if_neg (by omega), place]
  rfl

/-- A pattern byte is read at the place the mapper finds, and stored there where pattern memory is RAM (R578). -/
theorem Cart.chr_at {c : Cart} {a k : Nat} (place : c.chrIndex a = some k) (d : Byte) :
    c.chrRead a = c.chr.read k ∧
      c.chrWrite a d = if c.chrBanks8 = 0 then { c with chr := c.chr.write k d } else c := by
  simp only [Cart.chrRead, Cart.chrWrite, Cart.chrIsRam, place, beq_iff_eq, and_self]

/-- Settles O56: program and pattern addresses by variant, register writes by variant, then the reads and writes that
reach the place found. -/
theorem bankMapping : Obligations.BankMapping := by
  refine ⟨fun c a above below hn => ?program, fun c a below => ?pattern, fun c a v n above => ?registers,
    fun s a k above place => ?read, fun p c a d now k below place => ?patternAccess⟩
  case program =>
    obtain ⟨banks16, banks32, banks8⟩ := c.prgSize_banks
    refine ⟨fun mapper => ?fixed, fun b mapper => ?uxrom, fun m mapper => ?mmc1, fun m mapper => ?mmc3⟩
    case fixed => rcases mapper with mapper | ⟨b, mapper⟩ <;> rw [Cart.prgIndex, mapper] <;> rfl
    case uxrom =>
      rw [Cart.prgIndex, mapper]
      exact prgUxrom_eq banks16 hn b a
    case mmc1 =>
      obtain ⟨fixLast, fixFirst⟩ := prgMmc1_16K banks16 hn m a
      rw [Cart.prgIndex, mapper]
      exact ⟨fixLast, fixFirst, fun mode two => prgMmc1_32K banks32 (by omega) mode a⟩
    case mmc3 =>
      rw [Cart.prgIndex, mapper]
      exact prgMmc3_eq banks8 hn m a
  case pattern =>
    have hn := c.chrUnits_pos
    obtain ⟨banks8, banks4, banks1⟩ := c.chrSize_banks
    refine ⟨fun mapper => ?fixed, fun b mapper => ?cnrom, fun m mapper => ?mmc1, fun m mapper => ?mmc3⟩
    case fixed => rcases mapper with mapper | ⟨b, mapper⟩ <;> rw [Cart.chrIndex, mapper]
    case cnrom =>
      rw [Cart.chrIndex, mapper]
      exact bankIndex_whole banks8 hn b.toNat a
    case mmc1 =>
      rw [Cart.chrIndex, mapper]
      exact chrMmc1_eq banks8 banks4 hn m a
    case mmc3 =>
      rw [Cart.chrIndex, mapper]
      exact chrMmc3_eq banks1 hn m below
  case registers =>
    rw [Cart.cpuWrite_register above]
    refine ⟨fun mapper => ?nrom, fun b mapper => ?uxrom, fun b mapper => ?cnrom⟩
    all_goals rw [Cart.writeRegister, mapper]
  case read =>
    have answer := Cart.cpuRead_prgRom above place
    exact ⟨answer, busRead_cart a s _ (by omega) answer⟩
  case patternAccess =>
    obtain ⟨read, write⟩ := Cart.chr_at place d
    exact ⟨by rw [Ppu.busRead, Ppu.peek_pattern below, read], write⟩

end Sys2Proof.Machine
end

section
/-! PROOFS that decoding and encoding are inverse (`DecodeInvertsEncode`, `EveryOpcodeDecodes`, `WordsDecode`). An
instruction is its opcode with its operand bytes, and `decode` cuts a byte string into these and the rest. -/

namespace Sys2Proof

/-- The instruction of an opcode with its operand bytes; `decode` puts 0 for those that it does not carry. -/
def instrFrom (op : Byte) : List Byte → Instr
  | [] => instrOf op 0 0
  | [b1] => instrOf op b1 0
  | b1 :: b2 :: _ => instrOf op b1 b2

/-- `instrFrom` makes one of the instructions of its opcode. -/
theorem instrFrom_eq_instrOf (op : Byte) : (operands : List Byte) → ∃ b1 b2, instrFrom op operands = instrOf op b1 b2
  | [] => ⟨0, 0, rfl⟩
  | [b1] => ⟨b1, 0, rfl⟩
  | b1 :: b2 :: _ => ⟨b1, b2, rfl⟩

theorem opcode_instrFrom (op : Byte) (operands : List Byte) : (instrFrom op operands).opcode = op := by
  obtain ⟨b1, b2, made⟩ := instrFrom_eq_instrOf op operands
  rw [made, opcode_instrOf]

theorem length_operands_instrFrom (op : Byte) (operands : List Byte) :
    (instrFrom op operands).operands.length = operandBytes op := by
  obtain ⟨b1, b2, made⟩ := instrFrom_eq_instrOf op operands
  rw [made, length_operands_instrOf]

/-! ### No operand bit is dropped -/

/-- The 16-bit target of JSR holds both of its bytes (30_encoding.md R111). -/
theorem operands_jsr (b1 b2 : Byte) : (Instr.jsr (b2 ++ b1)).operands = [b1, b2] := by
  have low : (b2 ++ b1).extractLsb' 0 8 = b1 := BitVec.extractLsb'_append_eq_right
  have high : (b2 ++ b1).extractLsb' 8 8 = b2 := BitVec.extractLsb'_append_eq_left
  rw [Instr.operands, low, high]

/-- The two bytes of the target of JSR make it up again. -/
theorem jsr_bytes (target : Word) : target.extractLsb' 8 8 ++ target.extractLsb' 0 8 = target :=
  BitVec.extractLsb'_append_extractLsb'_eq_extractLsb' rfl |>.trans BitVec.extractLsb'_eq_self

/-- An instruction carries the operand bytes it is made from, as far as it has operands. -/
theorem isPrefix_operands_instrOf (op b1 b2 : Byte) : (instrOf op b1 b2).operands <+: [b1, b2] := by
  have hr : op.toNat / 16 < 16 := Nat.div_lt_of_lt_mul op.isLt
  have hc : op.toNat % 16 < 16 := Nat.mod_lt _ (by decide)
  have none : [] <+: [b1, b2] := List.nil_prefix
  have one : [b1] <+: [b1, b2] := ⟨[b2], rfl⟩
  have two : [b1, b2] <+: [b1, b2] := ⟨[], rfl⟩
  unfold instrOf
  generalize op.toNat / 16 = r at *
  generalize op.toNat % 16 = c at *
  cases r, hr using nibble_cases <;> cases c, hc using nibble_cases
  case c2.c0 => exact (operands_jsr b1 b2).symm ▸ two
  all_goals assumption

theorem operands_instrOf (op b1 b2 : Byte) : (instrOf op b1 b2).operands = [b1, b2].take (operandBytes op) := by
  rw [← length_operands_instrOf op b1 b2]
  exact List.prefix_iff_eq_take.mp (isPrefix_operands_instrOf op b1 b2)

/-- No opcode takes more than two operand bytes. -/
theorem operandBytes_le_two (op : Byte) : operandBytes op ≤ 2 := by
  rw [← length_operands_instrOf op 0 0]
  exact (isPrefix_operands_instrOf op 0 0).length_le

/-- The operand bytes of an opcode are none, one or two. -/
theorem operands_cases {op : Byte} {motive : (operands : List Byte) → operands.length = operandBytes op → Prop}
    (none : (count : 0 = operandBytes op) → motive [] count)
    (one : (b1 : Byte) → (count : 1 = operandBytes op) → motive [b1] count)
    (two : (b1 b2 : Byte) → (count : 2 = operandBytes op) → motive [b1, b2] count) :
    (operands : List Byte) → (h : operands.length = operandBytes op) → motive operands h
  | [], count => none count
  | [b1], count => one b1 count
  | [b1, b2], count => two b1 b2 count
  | _ :: _ :: _ :: tail, count => by
    have few : tail.length + 3 ≤ 2 := Nat.le_trans (Nat.le_of_eq count) (operandBytes_le_two op)
    omega

/-- An instruction made from as many operand bytes as its opcode takes carries exactly these. -/
theorem operands_instrFrom {op : Byte} {operands : List Byte} (h : operands.length = operandBytes op) :
    (instrFrom op operands).operands = operands := by
  cases operands, h using operands_cases with
  | none count | one b1 count | two b1 b2 count =>
    rw [instrFrom, operands_instrOf, ← count]
    rfl

/-- An instruction is made from its opcode and the operand bytes it carries. -/
theorem instrFrom_opcode_operands (i : Instr) : instrFrom i.opcode i.operands = i := by
  cases i <;> rw [Instr.opcode]
  case jsr target => exact congrArg Instr.jsr (jsr_bytes target)
  all_goals rfl

theorem length_operands (i : Instr) : i.operands.length = operandBytes i.opcode := by
  rw [← length_operands_instrFrom i.opcode i.operands, instrFrom_opcode_operands]

/-! ### What `decode` answers -/

/-- The bytes of an instruction made from an opcode and its operand bytes are these (30_encoding.md R110). -/
theorem encode_instrFrom {op : Byte} {operands : List Byte} (h : operands.length = operandBytes op) :
    encode (instrFrom op operands) = op :: operands := by
  rw [encode, opcode_instrFrom, operands_instrFrom h]

/-- An opcode and as many bytes as it takes decode to the instruction they make, whatever follows. -/
theorem decode_append {op : Byte} {operands : List Byte} (h : operands.length = operandBytes op) (rest : List Byte) :
    decode (op :: operands ++ rest) = .ok (instrFrom op operands, rest) := by
  cases operands, h using operands_cases with
  | none count | one b1 count | two b1 b2 count =>
    simp only [List.cons_append, List.nil_append, decode, ← count, instrFrom]

/-- Where `decode` answers an instruction, the string is its opcode, its operand bytes and the rest. -/
theorem decode_ok {bytes rest : List Byte} {i : Instr} (h : decode bytes = .ok (i, rest)) :
    ∃ op operands, bytes = op :: operands ++ rest ∧ operands.length = operandBytes op ∧ i = instrFrom op operands := by
  unfold decode at h
  split at h
  next => cases h
  next op bytes =>
    split at h
    next count => cases h; exact ⟨op, [], rfl, count.symm, rfl⟩
    next b1 _ count => cases h; exact ⟨op, [b1], rfl, count.symm, rfl⟩
    next b1 b2 _ count => cases h; exact ⟨op, [b1, b2], rfl, count.symm, rfl⟩
    next => cases h

/-- Settles O21: the operand bytes of an instruction are as many as its opcode takes, and with them it is made again. -/
theorem decodeInvertsEncode : Obligations.DecodeInvertsEncode := by
  intro i rest _
  rw [encode, decode_append (length_operands i), instrFrom_opcode_operands]

/-- An opcode and its operand bytes are as many bytes as its mode says (30_encoding.md R111). -/
theorem length_mode (op : Byte) : (descriptor op).mode.length = operandBytes op + 1 := by
  rw [operandBytes]
  cases (descriptor op).mode <;> rfl

/-- Settles O22: an opcode takes its operand bytes from the two that follow; and what decodes is cut into an opcode,
its operand bytes and the rest, which are the bytes of the instruction they make. -/
theorem everyOpcodeDecodes : Obligations.EveryOpcodeDecodes := by
  refine ⟨fun op b1 b2 rest => ?decodes, rfl, fun bytes i rest h => ?encodes⟩
  case decodes =>
    have count : ([b1, b2].take (operandBytes op)).length = operandBytes op :=
      List.length_take_of_le (operandBytes_le_two op)
    have cut : op :: b1 :: b2 :: rest =
        op :: [b1, b2].take (operandBytes op) ++ ([b1, b2].drop (operandBytes op) ++ rest) := by
      rw [List.cons_append, ← List.append_assoc, List.take_append_drop]
      rfl
    refine ⟨_, _, cut ▸ decode_append count _, opcode_instrFrom _ _, ?length, ?mode⟩
    case length =>
      rw [encode_instrFrom count, Nat.add_comm (List.length _) (List.length _), ← List.length_append, ← cut]
      rfl
    case mode => rw [encode_instrFrom count, List.length_cons, count, length_mode]
  case encodes =>
    obtain ⟨op, operands, rfl, count, rfl⟩ := decode_ok h
    rw [encode_instrFrom count]

/-- Settles O23: each word is the encoding of its instruction. -/
theorem wordsDecode : Obligations.WordsDecode := by
  intro f hf
  have word : f.1 = encode f.2 ++ [] := by
    revert f
    decide
  rw [word]
  exact decodeInvertsEncode f.2 [] rfl

end Sys2Proof
end

section
/-! PROOFS about when an instruction that changes I is seen by the poll (`FlagChangesAreSeenLate`). -/

namespace Sys2Proof.Machine

/-- The last step of a read bus cycle polls the IRQ line against the I that stands then, which the cycle itself leaves
as it found it (60_exceptions.md R343). -/
theorem busRead_polls (addr : Word) (s : State) :
    (busRead addr s).2.irqRaised = (irqLine (busRead addr s).2 && !s.p.i) := by
  have polled : (busRead addr s).2.irqRaised = (irqLine (busRead addr s).2 && !(busRead addr s).2.p.i) := rfl
  rw [polled, (kept_busRead addr s).p]

/-- The cycle of a pull polls the I from before it, whatever byte it pulls. -/
theorem pull_polls (s : State) : (pull s).2.irqRaised = (irqLine (pull s).2 && !s.p.i) := busRead_polls _ _

/-- The IRQ line is the devices': no register change touches it. -/
theorem irqLine_setP (f : Flags) (s : State) : irqLine (s.setP f) = irqLine s := rfl
theorem irqLine_setPc (v : Word) (s : State) : irqLine (s.setPc v) = irqLine s := rfl

/-- An implied instruction changes the flags after its one cycle, which has polled the I from before. -/
theorem dummyRead_setP_polls (f : Flags) (s : State) :
    ((dummyRead s.pc s).setP f).irqRaised = (irqLine ((dummyRead s.pc s).setP f) && !s.p.i) := by
  rw [State.setP_irqRaised, irqLine_setP, dummyRead, busRead_polls]

/-- `PLP` changes I after its last cycle, which has polled the I from before. -/
theorem runPlp_polls (s : State) : (runPlp s).irqRaised = (irqLine (runPlp s) && !s.p.i) := by
  rw [runPlp, State.setP_irqRaised, irqLine_setP, pull_polls, (kept_beforePull s).p]

/-- A pull leaves the flags alone. -/
theorem pull_p (s : State) : (pull s).2.p = s.p := (kept_pull s).p

/-- The last pull of `RTI` polls the I that its first pull has restored. -/
theorem runRti_polls (s : State) : (runRti s).irqRaised = (irqLine (runRti s) && !(runRti s).p.i) := by
  simp only [runRti, returnFromInterrupt, State.setPc_irqRaised, irqLine_setPc, State.setPc_p]
  rw [pull_polls, pull_p (pull _).2]

/-- Settles O28: in CLI, SEI and PLP the last cycle polls before the flags change; in RTI the flags change two cycles
before it. -/
theorem flagChangesAreSeenLate : Obligations.FlagChangesAreSeenLate := by
  intro s
  have plp : (runPlp s).p = Flags.ofByte (s.ram.read (256 + (s.s + 1).toNat)) := by rw [← State.cpu_p, runPlp_cpu]
  have rti : (runRti s).p = Flags.ofByte (s.ram.read (256 + (s.s + 1).toNat)) := by rw [← State.cpu_p, runRti_cpu]
  exact ⟨⟨opCli _, rfl, rfl, dummyRead_setP_polls _ s⟩, ⟨opSei _, rfl, rfl, dummyRead_setP_polls _ s⟩,
    ⟨runPlp s, rfl, congrArg Flags.i plp, runPlp_polls s⟩, ⟨runRti s, rfl, congrArg Flags.i rti, runRti_polls s⟩⟩

end Sys2Proof.Machine
end

section
/-! PROOFS about the effective address of each mode and the reads that form it (`EffectiveAddresses`). The lemmas of
`Laws/Ops.lean` give the addresses; here they stand with the states that the reads leave. -/

namespace Sys2Proof.Machine

/-- An address in page zero is a zero byte before its low byte. -/
theorem zext16_eq_append (b : Byte) : zext16 b = 0#8 ++ b := by
  apply BitVec.eq_of_toNat_eq
  rw [zext16_toNat, BitVec.toNat_append]
  simp

/-- `abs,X`, `abs,Y` and the second half of `(zp),Y`: the sum modulo 65536, after a dummy read of the uncorrected
address where the sum leaves the page or the class is not read (40_addressing.md R146, R149, R150). -/
theorem eaIndexed_eq (cls : AccessClass) (lo hi i : Byte) (s : State) :
    eaIndexed cls lo hi i s =
      ((hi ++ lo) + i.setWidth 16,
        if 255 < lo.toNat + i.toNat ∨ cls ≠ .read then dummyRead (hi ++ (lo + i)) s else s) := by
  have guard : (crosses lo i || cls != .read) = true ↔ 255 < lo.toNat + i.toNat ∨ cls ≠ .read := by
    rw [Bool.or_eq_true, crosses, decide_eq_true_eq, bne_iff_ne]
  simp only [eaIndexed, guard, mk16, zext16]

/-- `zp,X` with its dummy read at the unindexed address (40_addressing.md R143). -/
theorem eaZpx_eq (b : Byte) (s : State) : eaZpx b s = (zext16 (b + s.x), dummyRead (zext16 b) s) :=
  Prod.ext (eaZpx_fst b s) rfl

/-- `zp,Y` with its dummy read at the unindexed address (40_addressing.md R144). -/
theorem eaZpy_eq (b : Byte) (s : State) : eaZpy b s = (zext16 (b + s.y), dummyRead (zext16 b) s) :=
  Prod.ext (eaZpy_fst b s) rfl

/-- `(zp,X)` leaves the state after the dummy read and the two pointer reads (40_addressing.md R148). -/
theorem eaIzx_snd (b : Byte) (s : State) :
    (eaIzx b s).2 =
      (busRead (zext16 (b + s.x + 1)) (busRead (zext16 (b + s.x)) (dummyRead (zext16 b) s)).2).2 := by
  simp only [eaIzx, pointerIzx, (kept_dummyRead (zext16 b) s).x]

/-- `(zp),Y` indexes the pointer that it reads with the Y from before the reads (40_addressing.md R149). -/
theorem eaIzy_eq (cls : AccessClass) (b : Byte) (s : State) :
    eaIzy cls b s =
      eaIndexed cls (s.ram.read b.toNat) (s.ram.read (b + 1).toNat) s.y
        (busRead (zext16 (b + 1)) (busRead (zext16 b) s).2).2 := by
  have y : (pointerIzy b s).2.y = s.y := (kept_pointerIzy b s).y
  rw [eaIzy, pointerIzy_fst, y]
  rfl

/-- Settles O35: each mode by its own law, the addresses of page zero written with their high byte. -/
theorem effectiveAddresses : Obligations.EffectiveAddresses := by
  intro s b lo hi cls indexed
  simp only [← zext16_eq_append]
  refine ⟨rfl, eaZpx_eq b s, eaZpy_eq b s, rfl, eaIndexed_eq cls lo hi s.x s, eaIndexed_eq cls lo hi s.y s,
    Prod.ext (eaIzx_fst b s) (eaIzx_snd b s), ?izy, rfl⟩
  case izy => rw [eaIzy_eq, eaIndexed_eq]

end Sys2Proof.Machine
end

section
/-! PROOFS about the bus cycles of every instruction (`CycleCounts`). Cycles are counted from a state in which the DMC
has nothing to fetch, which reads and pushes keep; then each access class is counted once, over the cycles of its
addressing mode; then every instruction is put in its class. -/

namespace Sys2Proof.Machine

/-! ### The DMC stays quiet -/

/-- No tick of the audio unit starts a sample. -/
theorem bytesLeft_clockTimer (d : Dmc) : d.clockTimer.bytesLeft = d.bytesLeft := by
  unfold Dmc.clockTimer Dmc.reloadShift
  dsimp only
  repeat' split
  all_goals rfl

theorem dmc_sequencerTick (u : Apu) : u.sequencerTick.dmc = u.dmc := by
  unfold Apu.sequencerTick Apu.sequencerStep
  repeat' split
  all_goals rfl

theorem dmc_pulseTimers (u : Apu) : u.pulseTimers.dmc = u.dmc := by
  unfold Apu.pulseTimers
  split <;> rfl

theorem bytesLeft_tick (u : Apu) : u.tick.dmc.bytesLeft = u.dmc.bytesLeft := by
  simp only [Apu.tick, bytesLeft_clockTimer, dmc_pulseTimers, dmc_sequencerTick]

/-- The DMC has nothing to fetch, and `n` bus cycles have been counted. -/
structure QuietAt (n : Nat) (s : State) : Prop where
  request : s.dmcRequest = false
  bytes : s.apu.dmc.bytesLeft = 0
  cycles : s.cycles = n

theorem QuietAt.of_dmcQuiet {s : State} (h : dmcQuiet s = true) : QuietAt s.cycles s := by
  simp only [dmcQuiet, Bool.and_eq_true, Bool.not_eq_true', beq_iff_eq] at h
  obtain ⟨request, bytes⟩ := h
  exact ⟨request, bytes, rfl⟩

/-- The start of a bus cycle counts it, and raises no request. -/
theorem QuietAt.cycleStart {n : Nat} {s : State} (h : QuietAt n s) : QuietAt (n + 1) (cycleStart s) := by
  obtain ⟨request, bytes, cycles⟩ := h
  have bytes' : s.apu.tick.dmc.bytesLeft = 0 := (bytesLeft_tick s.apu).trans bytes
  refine ⟨?_, bytes', congrArg (· + 1) cycles⟩
  simp only [Machine.cycleStart, tickApu, request, Dmc.wantsByte, bytes', bne_self_eq_false, Bool.and_false,
    Bool.or_false]

theorem QuietAt.dots {n : Nat} {s : State} (h : QuietAt n s) (k : Nat) : QuietAt n (tickPpus k s) := by
  induction k generalizing s with
  | zero => exact h
  | succ k ih => exact ih ⟨h.request, h.bytes, h.cycles⟩

theorem QuietAt.capture {n : Nat} {s : State} (h : QuietAt n s) : QuietAt n (captureInterrupts s) :=
  ⟨h.request, h.bytes, h.cycles⟩

theorem QuietAt.poll {n : Nat} {s : State} (h : QuietAt n s) : QuietAt n (pollInterrupts s) :=
  ⟨h.request, h.bytes, h.cycles⟩

theorem QuietAt.countDown {n : Nat} {s : State} (h : QuietAt n s) : QuietAt n (countDown s) :=
  ⟨h.request, h.bytes, h.cycles⟩

/-- No read of a device asks for a sample byte. -/
theorem QuietAt.deviceEffect {n : Nat} {s : State} (h : QuietAt n s) (addr : Word) :
    QuietAt n (deviceEffect addr s) := by
  obtain ⟨request, bytes, cycles⟩ := h
  unfold Machine.deviceEffect ppuRegEffect
  repeat' split
  all_goals exact ⟨request, bytes, cycles⟩

theorem QuietAt.finishRead {n : Nat} {s : State} (h : QuietAt n s) (suppress : Bool) (addr : Word) :
    QuietAt n (finishRead suppress addr s).2 := by
  refine ((QuietAt.deviceEffect (QuietAt.dots ?_ _) addr).dots _).poll
  split
  · exact h
  · exact h.capture

/-- With nothing to fetch a read cannot stall. -/
theorem QuietAt.serviceDmc {n : Nat} {s : State} (h : QuietAt n s) (addr : Word) : QuietAt n (serviceDmc addr s) := by
  unfold Machine.serviceDmc
  split
  · exact h.countDown
  · rw [if_neg (ne_true_of_eq_false h.request)]
    exact h

/-! ### Operations that read and push -/

/-- From a state in which the DMC is quiet, `t` is `k` bus cycles later, and the DMC still quiet. -/
def Takes (k : Nat) (s t : State) : Prop := ∀ n, QuietAt n s → QuietAt (n + k) t

theorem Takes.refl (s : State) : Takes 0 s s := fun _ h => h

theorem Takes.trans {j k : Nat} {s t u : State} (h : Takes j s t) (h' : Takes k t u) : Takes (j + k) s u :=
  fun n q => Nat.add_assoc n j k ▸ h' _ (h n q)

/-- A change of registers takes no cycle. -/
theorem takes_regs {s t : State} (h : OnlyRegs s t) : Takes 0 s t := fun _ q => by
  rw [h.1]
  exact ⟨q.request, q.bytes, q.cycles⟩

theorem takes_setPc (v : Word) (s : State) : Takes 0 s (s.setPc v) := takes_regs ⟨rfl, rfl⟩
theorem takes_setS (v : Byte) (s : State) : Takes 0 s (s.setS v) := takes_regs ⟨rfl, rfl⟩
theorem takes_setP (f : Flags) (s : State) : Takes 0 s (s.setP f) := takes_regs ⟨rfl, rfl⟩

theorem takes_busReadWith (suppress : Bool) (addr : Word) (s : State) : Takes 1 s (busReadWith suppress addr s).2 :=
  fun _ q => (q.cycleStart.serviceDmc addr).finishRead suppress addr

theorem takes_busRead (addr : Word) (s : State) : Takes 1 s (busRead addr s).2 := takes_busReadWith false addr s

theorem takes_dummyRead (addr : Word) (s : State) : Takes 1 s (dummyRead addr s) := takes_busRead addr s

theorem takes_dummyStackRead (s : State) : Takes 1 s (dummyStackRead s) := takes_dummyRead _ s

theorem takes_fetchOperand (s : State) : Takes 1 s (fetchOperand s).2 :=
  Takes.trans (takes_busRead s.pc s) (takes_setPc _ _)

theorem takes_pull (s : State) : Takes 1 s (pull s).2 :=
  Takes.trans (takes_setS _ s) (takes_busRead _ _)

/-- A push writes to internal RAM, so it starts neither a sample nor OAM DMA. -/
theorem takes_push (v : Byte) (s : State) : Takes 1 s (push v s) := fun n q => by
  have low := s.s.isLt
  have inRam : (stackAddr s).toNat < 0x2000 := by
    rw [stackAddr_toNat]
    omega
  have stored : QuietAt (n + 1) (deviceWrite (stackAddr s) v (atWrite s)) := by
    obtain ⟨request, bytes, cycles⟩ : QuietAt (n + 1) (atWrite s) := q.cycleStart.countDown.capture.dots _
    rw [deviceWrite, if_pos inRam]
    exact ⟨request, bytes, cycles⟩
  obtain ⟨request, bytes, cycles⟩ := (stored.dots (3 - s.params.writeSplit.val)).poll
  rw [push, busWrite_of_ne _ _ _ (by omega), writeCycle_eq]
  exact ⟨request, bytes, cycles⟩

/-- Taking an interrupt: three pushes and the two bytes of the vector (60_exceptions.md R346). -/
theorem takes_enterHandler (b : Bool) (s : State) : Takes 5 s (enterHandler b s) := by
  have vector (t : State) : Takes 0 t (selectVector 0xFFFE#16 t).2 := fun n q => by
    rw [selectVector_eq]
    exact ⟨q.request, q.bytes, q.cycles⟩
  exact ((takes_push _ s).trans <| (takes_push _ _).trans <| (takes_push _ _).trans <| (vector _).trans <|
    (takes_setP _ _).trans <| (takes_busRead _ _).trans <| (takes_busRead _ _).trans (takes_setPc _ _) :)

/-! ### The sequences of single instructions -/

theorem takes_opLda (v : Byte) (s : State) : Takes 0 s (opLda v s) := takes_regs ⟨rfl, rfl⟩

theorem takes_holdService (s : State) : Takes 0 s { s with noServiceNext := true } := takes_regs ⟨rfl, rfl⟩

theorem takes_runPha (s : State) : Takes 2 s (runPha s) := (takes_dummyRead _ s).trans (takes_push _ _)

theorem takes_runPhp (s : State) : Takes 2 s (runPhp s) := (takes_dummyRead _ s).trans (takes_push _ _)

theorem takes_beforePull (s : State) : Takes 2 s (dummyStackRead (dummyRead s.pc s)) :=
  (takes_dummyRead _ s).trans (takes_dummyStackRead _)

theorem takes_runPla (s : State) : Takes 3 s (runPla s) :=
  ((takes_beforePull s).trans (takes_pull _)).trans (takes_opLda _ _)

theorem takes_runPlp (s : State) : Takes 3 s (runPlp s) :=
  ((takes_beforePull s).trans (takes_pull _)).trans (takes_setP _ _)

theorem takes_runRts (s : State) : Takes 5 s (runRts s) :=
  (takes_beforePull s).trans <| (takes_pull _).trans <| (takes_pull _).trans <|
    (takes_dummyRead _ _).trans (takes_setPc _ _)

theorem takes_runRti (s : State) : Takes 5 s (runRti s) :=
  (takes_beforePull s).trans <| (takes_pull _).trans <| (takes_setP _ _).trans <| (takes_pull _).trans <|
    (takes_pull _).trans (takes_setPc _ _)

theorem takes_runJsr (lo : Byte) (s : State) : Takes 4 s (runJsr lo s) :=
  (takes_dummyStackRead s).trans <| (takes_push _ _).trans <| (takes_push _ _).trans <|
    (takes_busRead _ _).trans (takes_setPc _ _)

theorem takes_runBrk (s : State) : Takes 6 s (runBrk s) :=
  ((takes_fetchOperand s).trans (takes_enterHandler true _)).trans (takes_holdService _)

theorem takes_runJmpInd (lo hi : Byte) (s : State) : Takes 2 s (runJmpInd lo hi s) :=
  ((takes_busRead _ s).trans (takes_busRead _ _)).trans (takes_setPc _ _)

/-! ### The last cycles of an instruction, which may write anywhere but to $4014 -/

theorem cycles_dots (k : Nat) (s : State) : (tickPpus k s).cycles = s.cycles := by
  induction k generalizing s with
  | zero => rfl
  | succ k ih => exact ih (tickPpu s)

theorem cycles_deviceWrite (addr : Word) (v : Byte) (s : State) : (deviceWrite addr v s).cycles = s.cycles := by
  unfold deviceWrite ppuRegWrite writeStrobe
  repeat' split
  all_goals rfl

theorem cycles_atWrite (s : State) : (atWrite s).cycles = s.cycles + 1 := cycles_dots _ _

/-- A write takes one cycle, whatever it starts, but for the OAM DMA that one to $4014 starts. -/
theorem cycles_busWrite {addr : Word} (h : addr ≠ 0x4014) (v : Byte) (s : State) :
    (busWrite addr v s).cycles = s.cycles + 1 := by
  have other : addr.toNat ≠ 0x4014 := fun e => h (BitVec.eq_of_toNat_eq e)
  have polled (t : State) : (pollInterrupts t).cycles = t.cycles := rfl
  rw [busWrite_of_ne addr v s other, writeCycle_eq, polled, cycles_dots, cycles_deviceWrite, cycles_atWrite]

theorem OnlyRegs.cycles {s t : State} (h : OnlyRegs s t) : t.cycles = s.cycles := by
  rw [h.1]
  rfl

/-! ### Descriptors by row and column -/

/-- The rows of the matrix (30_encoding.md R115). -/
def opcodeRow : Nat → List Descriptor
  | 0 => opcodeRow0
  | 1 => opcodeRow1
  | 2 => opcodeRow2
  | 3 => opcodeRow3
  | 4 => opcodeRow4
  | 5 => opcodeRow5
  | 6 => opcodeRow6
  | 7 => opcodeRow7
  | 8 => opcodeRow8
  | 9 => opcodeRow9
  | 10 => opcodeRowA
  | 11 => opcodeRowB
  | 12 => opcodeRowC
  | 13 => opcodeRowD
  | 14 => opcodeRowE
  | _ => opcodeRowF

/-- The cell of an opcode in its row: a form of `descriptor` that is short to evaluate. -/
def cellOf (op : Byte) : Descriptor := (opcodeRow (op.toNat / 16)).getD (op.toNat % 16) (unf .jam .imp)

theorem descriptor_eq_cellOf (op : Byte) : descriptor op = cellOf op := by
  refine eq_of_rowOf_eq (fun r hr => ?_) op
  rw [rowOf_descriptor hr]
  cases r, hr using nibble_cases <;> rfl

/-! ### The cycles of the addressing modes -/

/-- The cycle that a read-class page crossing costs (40_addressing.md R150, R154). -/
def crossingPenalty (cls : AccessClass) (crossed : Bool) : Nat :=
  if cls = .read then (if crossed then 1 else 0) else 0

theorem crossingPenalty_false (cls : AccessClass) : crossingPenalty cls false = 0 := by cases cls <;> rfl

/-- The dummy read of an indexed mode where no page crossing asks for it (40_addressing.md R146, R149). -/
def indexCycles (cls : AccessClass) : Nat := if cls = .read then 0 else 1

/-- The cycles of an addressing mode after the operand fetches, without a page crossing (40_addressing.md R142 to
R149). -/
def addressCycles (cls : AccessClass) : Mode → Nat
  | .zpx | .zpy => 1
  | .abx | .aby => indexCycles cls
  | .izx => 3
  | .izy => 2 + indexCycles cls
  | _ => 0

theorem crossingPenalty_of_ne_read {cls : AccessClass} (h : cls ≠ .read) (crossed : Bool) :
    crossingPenalty cls crossed = 0 := if_neg h

theorem takes_eaIndexed (cls : AccessClass) (lo hi j : Byte) (s : State) :
    Takes (indexCycles cls + crossingPenalty cls (crosses lo j)) s (eaIndexed cls lo hi j s).2 := by
  have read := takes_dummyRead (mk16 hi (lo + j)) s
  unfold eaIndexed
  cases cls <;> cases crosses lo j
  case read.false => exact Takes.refl s
  all_goals exact read

theorem takes_eaIzy (cls : AccessClass) (b : Byte) (s : State) :
    Takes (2 + indexCycles cls + crossingPenalty cls (crosses (s.ram.read b.toNat) s.y)) s (eaIzy cls b s).2 := by
  rw [eaIzy_eq, Nat.add_assoc]
  exact ((takes_busRead _ s).trans (takes_busRead _ _)).trans (takes_eaIndexed _ _ _ _ _)

/-- The address and state that the mode of a descriptor gives to the operands of an instruction. -/
def addressIn (d : Descriptor) (i : Instr) (s : State) : Word × State :=
  let b := i.operands.headD 0
  let hi := i.operands.getD 1 0
  match d.mode with
  | .zp => eaZp b s
  | .zpx => eaZpx b s
  | .zpy => eaZpy b s
  | .abs => eaAbs b hi s
  | .abx => eaAbx d.cls b hi s
  | .aby => eaAby d.cls b hi s
  | .izx => eaIzx b s
  | .izy => eaIzy d.cls b s
  | _ => (0, s)

theorem addressOf_eq_addressIn (i : Instr) : addressOf i = addressIn (descriptor i.opcode) i := rfl

/-- Forming the address of an instruction: the cycles of its mode, and what a page crossing costs. -/
theorem takes_addressOf (i : Instr) (s : State) :
    Takes (addressCycles (descriptor i.opcode).cls (descriptor i.opcode).mode +
      crossingPenalty (descriptor i.opcode).cls (pageCrossed i s)) s (addressOf i s).2 := by
  unfold addressOf pageCrossed
  generalize (descriptor i.opcode).cls = cls
  cases (descriptor i.opcode).mode
  case zpx => exact crossingPenalty_false cls ▸ takes_dummyRead _ s
  case zpy => exact crossingPenalty_false cls ▸ takes_dummyRead _ s
  case abx => exact takes_eaIndexed _ _ _ _ _
  case aby => exact takes_eaIndexed _ _ _ _ _
  case izx =>
    exact crossingPenalty_false cls ▸
      (takes_dummyRead _ s).trans ((takes_busRead _ _).trans (takes_busRead _ _))
  case izy => exact takes_eaIzy _ _ _
  all_goals exact crossingPenalty_false cls ▸ Takes.refl s

/-! ### The store-high family -/

theorem hi8_mk16 (hi lo : Byte) : hi8 (mk16 hi lo) = hi := by
  rw [hi8, mk16, BitVec.extractLsb'_append_eq_of_le (Nat.le_refl 8), Nat.sub_self, BitVec.extractLsb'_eq_self]

theorem lo8_mk16 (hi lo : Byte) : lo8 (mk16 hi lo) = lo := by
  rw [lo8, mk16, BitVec.extractLsb'_append_eq_of_add_le (by decide), BitVec.extractLsb'_eq_self]

/-- Adding an index carries into the high byte on a page crossing, and nowhere else (40_addressing.md R150). -/
theorem mk16_add_index (lo hi j : Byte) :
    mk16 hi lo + zext16 j = mk16 (if crosses lo j then hi + 1 else hi) (lo + j) := by
  have := lo.isLt
  have := hi.isLt
  have := j.isLt
  apply BitVec.eq_of_toNat_eq
  rw [BitVec.toNat_add, mk16_toNat, mk16_toNat, zext16_toNat, BitVec.toNat_add]
  unfold crosses
  split
  case isTrue h =>
    rw [decide_eq_true_eq] at h
    rw [BitVec.toNat_add, show (1 : Byte).toNat = 1 from rfl]
    omega
  case isFalse h =>
    rw [decide_eq_true_eq] at h
    omega

/-- Bus cycles leave `A & X`, which `SHA` and `TAS` store, as it was. -/
theorem Kept.valueSax {s t : State} (k : Kept s t) : valueSax t = valueSax s := by
  rw [Machine.valueSax, Machine.valueSax, k.a, k.x]

/-- The mnemonics of the store-high family (44_unofficial.md R306). -/
def storesHigh : Kind → Bool
  | .sha | .shx | .shy | .tas => true
  | _ => false

theorem storesHigh_iff (k : Kind) : storesHigh k = true ↔ (k = .sha ∨ k = .shx ∨ k = .shy ∨ k = .tas) := by
  cases k <;> decide

/-- Outside the family an instruction stores to its effective address. -/
theorem storeAddressOf_eq {i : Instr} (h : storesHigh (descriptor i.opcode).kind = false) (s : State) :
    storeAddressOf i s = (addressOf i s).1 :=
  if_neg fun family => ne_true_of_eq_false h ((storesHigh_iff _).mpr family.1)

/-- In the family, indexed by `j`, it stores to the page of the base address, or on a page crossing to the page that the
stored value names (44_unofficial.md R306). -/
theorem storeAddressOf_storeHigh {i : Instr} {s : State} {lo hi j : Byte}
    (h : storesHigh (descriptor i.opcode).kind = true) (ea : (addressOf i s).1 = mk16 hi lo + zext16 j)
    (crossed : pageCrossed i s = crosses lo j) :
    storeAddressOf i s =
      mk16 (if crosses lo j then storeHighSource (descriptor i.opcode).kind s &&& (hi + 1) else hi) (lo + j) := by
  have family := (storesHigh_iff _).mp h
  simp only [storeAddressOf, family, true_and, crossed, ea, mk16_add_index, hi8_mk16, lo8_mk16]
  split <;> rfl

/-! ### The cycles of the classes -/

/-- The cycles of an instruction after its fetch, without those that R660 adds. -/
def cyclesAfterFetch (d : Descriptor) : Nat :=
  match d.cls with
  | .read => if d.mode = .imm then 0 else addressCycles .read d.mode + 1
  | .write => addressCycles .write d.mode + 1
  | .rmw => addressCycles .rmw d.mode + 3
  | .own =>
    match d.kind with
    | .jam => 0
    | .pha | .php => 2
    | .pla | .plp => 3
    | .jsr => 4
    | .rts | .rti => 5
    | .brk => 6
    | .jmp => if d.mode = .ind then 2 else 0
    | _ => if d.mode = .rel then 0 else 1

/-- `r` is a next state, and the cycles up to it are those that instruction `i` takes when it does not halt. -/
def Completes (i : Instr) (s : State) (r : Result) : Prop :=
  let d := descriptor i.opcode
  dmcQuiet s = true → (d.cls = .write ∨ d.cls = .rmw → storeAddressOf i s ≠ 0x4014) →
    ∃ t, r = .next t ∧ t.cycles = s.cycles + (cyclesAfterFetch d + extraCycles i s)

section
variable {i : Instr} {s : State} {d : Descriptor}

/-- A class known not to be read. -/
theorem ne_read_of_eq {c c' : AccessClass} (h : c = c') (other : c' ≠ .read) : c ≠ .read := h ▸ other

/-- A class that is not read takes the dummy read of an indexed mode in any case: a page crossing costs nothing. -/
theorem addressed_of_ne_read (cls : (descriptor i.opcode).cls ≠ .read) (quiet : dmcQuiet s = true) :
    QuietAt (s.cycles + addressCycles (descriptor i.opcode).cls (descriptor i.opcode).mode) (addressOf i s).2 := by
  have addressed := takes_addressOf i s
  rw [crossingPenalty_of_ne_read cls] at addressed
  exact addressed _ (.of_dmcQuiet quiet)

theorem extraCycles_of_read (cls : (descriptor i.opcode).cls = .read) :
    extraCycles i s = crossingPenalty .read (pageCrossed i s) := if_pos cls

/-- Outside the read class only a branch taken adds cycles. -/
theorem extraCycles_of_not_taken (cls : (descriptor i.opcode).cls ≠ .read)
    (notTaken : branchTaken (descriptor i.opcode).kind s.p = false) : extraCycles i s = 0 := by
  rw [extraCycles, if_neg cls, if_neg (ne_true_of_eq_false notTaken)]

/-- The write and read-modify-write classes are told by mnemonic (30_encoding.md R116). -/
theorem kind_of_stores {d : Descriptor} (h : d.cls = .write ∨ d.cls = .rmw) :
    d.kind.isStore = true ∨ d.kind.isRmw = true := by
  revert h
  unfold Descriptor.cls
  repeat' split
  all_goals simp_all

/-- A branch neither stores nor modifies. -/
theorem branchTaken_of_stores {d : Descriptor} (h : d.cls = .write ∨ d.cls = .rmw) (f : Flags) :
    branchTaken d.kind f = false := by
  have stores := kind_of_stores h
  unfold branchTaken
  split
  case h_9 => rfl
  all_goals
    rename_i kind
    exact absurd stores (by rw [kind]; decide)

/-- An immediate operand is among the bytes fetched: no further cycle (40_addressing.md R154). -/
theorem Completes.immediate {f : Byte → State → State} {b : Byte} (hd : descriptor i.opcode = d) (mode : d.mode = .imm)
    (hf : ∀ v u, OnlyRegs u (f v u)) : Completes i s (immediate f b s) := by
  subst hd
  intro _ _
  refine ⟨_, rfl, ?_⟩
  have cls : (descriptor i.opcode).cls = .read := by simp only [Descriptor.cls, mode]
  have crossed : pageCrossed i s = false := by simp only [pageCrossed, mode]
  rw [(hf b s).cycles, extraCycles_of_read cls, crossed]
  simp only [cyclesAfterFetch, cls, mode]
  rfl

/-- The read class reads after its address is formed, where a page crossing counts (40_addressing.md R154). -/
theorem Completes.read {ea : State → Word × State} {f : Byte → State → State} (hd : descriptor i.opcode = d)
    (hea : addressIn d i = ea) (cls : d.cls = .read) (mode : d.mode ≠ .imm) (hf : ∀ v u, OnlyRegs u (f v u)) :
    Completes i s (readClass ea f s) := by
  subst hd hea
  rw [← addressOf_eq_addressIn]
  intro quiet _
  refine ⟨_, rfl, ?_⟩
  have addressed := takes_addressOf i s
  obtain ⟨-, -, cycles⟩ := addressed.trans (takes_busRead (addressOf i s).1 _) _ (.of_dmcQuiet quiet)
  rw [(hf _ _).cycles, cycles, extraCycles_of_read cls]
  simp only [cyclesAfterFetch, cls, if_neg mode]
  omega

/-- The write class writes, and reads nothing at its address (40_addressing.md R155). -/
theorem Completes.write {ea : State → Word × State} {value : State → Byte} (hd : descriptor i.opcode = d)
    (hea : addressIn d i = ea) (cls : d.cls = .write) (kind : storesHigh d.kind = false) :
    Completes i s (writeClass ea value s) := by
  subst hd hea
  rw [← addressOf_eq_addressIn]
  intro quiet elsewhere
  refine ⟨_, rfl, ?_⟩
  have notDma := storeAddressOf_eq kind s ▸ elsewhere (.inl cls)
  have notRead := ne_read_of_eq cls (by decide)
  obtain ⟨-, -, addressed⟩ := addressed_of_ne_read notRead quiet
  rw [cycles_busWrite notDma, addressed, extraCycles_of_not_taken notRead (branchTaken_of_stores (.inl cls) _)]
  simp only [cyclesAfterFetch, cls]
  omega

/-- The read-modify-write class reads and writes twice (40_addressing.md R156). -/
theorem Completes.rmw {ea : State → Word × State} {f : Byte → State → Byte × State} {after : Byte → State → State}
    (hd : descriptor i.opcode = d) (hea : addressIn d i = ea) (cls : d.cls = .rmw) (kind : storesHigh d.kind = false)
    (hf : ∀ v u, OnlyRegs u (f v u).2) (ha : ∀ v u, OnlyRegs u (after v u)) :
    Completes i s (rmwClass ea f after s) := by
  subst hd hea
  rw [← addressOf_eq_addressIn]
  intro quiet elsewhere
  refine ⟨_, rfl, ?_⟩
  have notDma := storeAddressOf_eq kind s ▸ elsewhere (.inr cls)
  have notRead := ne_read_of_eq cls (by decide)
  obtain ⟨-, -, cycles⟩ := takes_busRead (addressOf i s).1 _ _ (addressed_of_ne_read notRead quiet)
  rw [(ha _ _).cycles, cycles_busWrite notDma, (hf _ _).cycles, cycles_busWrite notDma, cycles,
    extraCycles_of_not_taken notRead (branchTaken_of_stores (.inr cls) _)]
  simp only [cyclesAfterFetch, cls]
  omega

/-- An instruction with its own sequence of `k` cycles, which is not a branch. -/
theorem Completes.own {k : Nat} {t : State} (hd : descriptor i.opcode = d) (cls : d.cls = .own)
    (notTaken : branchTaken d.kind s.p = false) (h : Takes k s t) (count : cyclesAfterFetch d = k) :
    Completes i s (.next t) := by
  subst hd
  intro quiet _
  refine ⟨_, rfl, ?_⟩
  obtain ⟨-, -, cycles⟩ := h _ (.of_dmcQuiet quiet)
  have notRead := ne_read_of_eq cls (by decide)
  rw [cycles, extraCycles_of_not_taken notRead notTaken, count]
  rfl

/-- An implied instruction takes one dummy read (40_addressing.md R140). -/
theorem Completes.implied {f : State → State} (hd : descriptor i.opcode = d) (cls : d.cls = .own)
    (notTaken : branchTaken d.kind s.p = false) (count : cyclesAfterFetch d = 1) (hf : ∀ u, OnlyRegs u (f u)) :
    Completes i s (implied f s) :=
  Completes.own hd cls notTaken ((takes_dummyRead _ s).trans (takes_regs (hf _))) count

/-- A branch takes the cycles that R250 gives it: none, one, or two where the target lies in another page. -/
theorem Completes.branch (hd : descriptor i.opcode = d) (cls : d.cls = .own) (count : cyclesAfterFetch d = 0) :
    Completes i s (branch (branchTaken d.kind s.p) (i.operands.headD 0) s) := by
  subst hd
  intro quiet _
  refine ⟨_, rfl, ?_⟩
  have notRead := ne_read_of_eq cls (by decide)
  rw [count, extraCycles, if_neg notRead]
  split
  case isFalse => rfl
  case isTrue =>
    unfold takeBranch
    split
    case isTrue => exact (takes_busReadWith true s.pc s _ (.of_dmcQuiet quiet)).cycles
    case isFalse =>
      exact ((takes_dummyRead s.pc s).trans (takes_dummyRead _ _) _ (.of_dmcQuiet quiet)).cycles

/-- The two cycles of the store-high family, from the state `u` that holds the address parts `lo` and `hi` and the
index `j` (44_unofficial.md R306). -/
theorem Completes.highStore {u : State} {lo hi j : Byte} {prep : State → State} {reg : State → Byte} {k : Nat}
    (hd : descriptor i.opcode = d) (ea : (addressIn d i s).1 = mk16 hi lo + zext16 j) (cls : d.cls = .write)
    (kind : storesHigh d.kind = true) (count : cyclesAfterFetch d = k + 2)
    (crossed : pageCrossed i s = crosses lo j) (reached : Takes k s u) (kept : Kept s u)
    (hp : ∀ u, OnlyRegs u (prep u)) (source : ∀ t, Kept s t → reg (prep t) = storeHighSource d.kind s) :
    Completes i s (storeHigh lo hi j prep reg u) := by
  subst hd
  intro quiet elsewhere
  refine ⟨_, rfl, ?_⟩
  have notDma := storeAddressOf_storeHigh kind ea crossed ▸ elsewhere (.inl cls)
  have stored := source _ (kept.trans (kept_dummyRead (mk16 hi (lo + j)) u))
  rw [← stored] at notDma
  have notRead := ne_read_of_eq cls (by decide)
  obtain ⟨-, -, cycles⟩ := reached.trans (takes_dummyRead (mk16 hi (lo + j)) u) _ (.of_dmcQuiet quiet)
  rw [extraCycles_of_not_taken notRead (branchTaken_of_stores (.inl cls) _), count]
  exact (cycles_busWrite notDma _ _).trans (by rw [(hp _).cycles, cycles]; rfl)

/-- The same where the instruction itself holds the base address. -/
theorem Completes.highStore_base {lo hi j : Byte} {prep : State → State} {reg : State → Byte}
    (hd : descriptor i.opcode = d) (ea : (addressIn d i s).1 = mk16 hi lo + zext16 j) (cls : d.cls = .write)
    (kind : storesHigh d.kind = true) (count : cyclesAfterFetch d = 2) (crossed : pageCrossed i s = crosses lo j)
    (hp : ∀ u, OnlyRegs u (prep u)) (source : ∀ t, Kept s t → reg (prep t) = storeHighSource d.kind s) :
    Completes i s (storeHigh lo hi j prep reg s) :=
  .highStore hd ea cls kind count crossed (Takes.refl s) (Kept.refl s) hp source

end

/-! ### The table -/

/-- The cycles of an opcode with its fetch, without those that R660 adds. -/
def baseCycles (d : Descriptor) : Nat := (if d.kind = .jsr then 2 else d.mode.length) + cyclesAfterFetch d

theorem cycleTable_eq : cycleTable = opcodeTable.map baseCycles := by
  simp only [opcodeTable, List.map_append]
  rfl

/-- The table of R660, checked against the counts of the classes. -/
theorem cycleTable_getD (op : Byte) :
    cycleTable.getD op.toNat 0 = fetchLength op + cyclesAfterFetch (descriptor op) := by
  have inTable : op.toNat < opcodeTable.length := by rw [length_opcodeTable]; exact op.isLt
  rw [cycleTable_eq, List.getD_eq_getElem?_getD, List.getElem?_map, List.getElem?_eq_getElem inTable,
    ← descriptor_eq_getElem op inTable]
  rfl

/-! ### Every instruction -/

/-- What R660 says of the execution of an instruction. -/
def Counted (i : Instr) (s : State) : Prop :=
  let d := descriptor i.opcode
  dmcQuiet s = true → (d.cls = .write ∨ d.cls = .rmw → storeAddressOf i s ≠ 0x4014) →
    ∃ t, exec i s = .next t ∧ t.cycles = s.cycles + if haltsIn i s then 0 else cyclesAfterFetch d + extraCycles i s

section
variable {i : Instr} {s : State} {n : Nat} {k : Kind} {m : Mode} {o : Bool}

/-- The cell is looked up by a numeral, so that it evaluates whatever operands `i` carries. -/
theorem descriptor_of_cell (hop : i.opcode = BitVec.ofNat 8 n) (cell : cellOf (BitVec.ofNat 8 n) = ⟨k, m, o⟩) :
    descriptor i.opcode = ⟨k, m, o⟩ := by
  rw [hop, descriptor_eq_cellOf, cell]

/-- An instruction that halts in no state. -/
theorem Counted.of_completes (hop : i.opcode = BitVec.ofNat 8 n) (cell : cellOf (BitVec.ofNat 8 n) = ⟨k, m, o⟩)
    (goesOn : (k == .jam) = false ∧ isUnstable (BitVec.ofNat 8 n) = false)
    (h : descriptor i.opcode = ⟨k, m, o⟩ → Completes i s (exec i s)) : Counted i s := by
  obtain ⟨notJam, stable⟩ := goesOn
  have hd := descriptor_of_cell hop cell
  have never : haltsIn i s = false := by
    rw [haltsIn, isJam, hd, hop, notJam, stable, Bool.and_false, Bool.or_false]
  rw [Counted, never]
  exact h hd

/-- An opcode of the halt family. -/
theorem Counted.of_jam {op : Byte} (hop : i.opcode = BitVec.ofNat 8 n) (cell : cellOf (BitVec.ofNat 8 n) = ⟨.jam, m, o⟩)
    (he : exec i s = .next (raiseFatal op s)) : Counted i s := by
  have always : haltsIn i s = true := by
    rw [haltsIn, isJam, descriptor_of_cell hop cell]
    rfl
  intro _ _
  refine ⟨_, he, ?_⟩
  rw [always]
  rfl

/-- An unstable opcode, which halts where the parameter says so and else takes the cycles of its own effect. -/
theorem Counted.of_unstable {op : Byte} {run : State → Result} (hop : i.opcode = BitVec.ofNat 8 n)
    (cell : cellOf (BitVec.ofNat 8 n) = ⟨k, m, o⟩)
    (isOne : (k == .jam) = false ∧ isUnstable (BitVec.ofNat 8 n) = true) (he : exec i s = unstable op run s)
    (h : descriptor i.opcode = ⟨k, m, o⟩ → Completes i s (run s)) : Counted i s := by
  obtain ⟨notJam, isOne⟩ := isOne
  have hd := descriptor_of_cell hop cell
  have whereFatal : haltsIn i s = s.params.unstableFatal := by
    rw [haltsIn, isJam, hd, hop, notJam, isOne, Bool.and_true, Bool.false_or]
  rw [Counted, whereFatal, he, unstable]
  split
  case isTrue => exact fun _ _ => ⟨_, rfl, rfl⟩
  case isFalse => exact h hd

end

/-- Every instruction, put in its class: its opcode, the cell of the matrix and the shape of its arm are evaluated. -/
theorem exec_counted : (i : Instr) → (s : State) → Counted i s
  | .oraIzx _, _ | .nopZp04 _, _ | .oraZp _, _ | .nopAbs _ _, _ | .oraAbs _ _, _ | .oraIzy _, _ | .nopZpx14 _, _
  | .oraZpx _, _ | .oraAby _ _, _ | .nopAbx1C _ _, _ | .oraAbx _ _, _ | .andIzx _, _ | .bitZp _, _ | .andZp _, _
  | .bitAbs _ _, _ | .andAbs _ _, _ | .andIzy _, _ | .nopZpx34 _, _ | .andZpx _, _ | .andAby _ _, _
  | .nopAbx3C _ _, _ | .andAbx _ _, _ | .eorIzx _, _ | .nopZp44 _, _ | .eorZp _, _ | .eorAbs _ _, _ | .eorIzy _, _
  | .nopZpx54 _, _ | .eorZpx _, _ | .eorAby _ _, _ | .nopAbx5C _ _, _ | .eorAbx _ _, _ | .adcIzx _, _
  | .nopZp64 _, _ | .adcZp _, _ | .adcAbs _ _, _ | .adcIzy _, _ | .nopZpx74 _, _ | .adcZpx _, _ | .adcAby _ _, _
  | .nopAbx7C _ _, _ | .adcAbx _ _, _ | .ldaIzx _, _ | .laxIzx _, _ | .ldyZp _, _ | .ldaZp _, _ | .ldxZp _, _
  | .laxZp _, _ | .ldyAbs _ _, _ | .ldaAbs _ _, _ | .ldxAbs _ _, _ | .laxAbs _ _, _ | .ldaIzy _, _ | .laxIzy _, _
  | .ldyZpx _, _ | .ldaZpx _, _ | .ldxZpy _, _ | .laxZpy _, _ | .ldaAby _ _, _ | .las _ _, _ | .ldyAbx _ _, _
  | .ldaAbx _ _, _ | .ldxAby _ _, _ | .laxAby _ _, _ | .cmpIzx _, _ | .cpyZp _, _ | .cmpZp _, _ | .cpyAbs _ _, _
  | .cmpAbs _ _, _ | .cmpIzy _, _ | .nopZpxD4 _, _ | .cmpZpx _, _ | .cmpAby _ _, _ | .nopAbxDC _ _, _
  | .cmpAbx _ _, _ | .sbcIzx _, _ | .cpxZp _, _ | .sbcZp _, _ | .cpxAbs _ _, _ | .sbcAbs _ _, _ | .sbcIzy _, _
  | .nopZpxF4 _, _ | .sbcZpx _, _ | .sbcAby _ _, _ | .nopAbxFC _ _, _ | .sbcAbx _ _, _ =>
    .of_completes rfl rfl ⟨rfl, rfl⟩ fun d => .read d rfl rfl nofun fun _ _ => ⟨rfl, rfl⟩
  | .staIzx _, _ | .saxIzx _, _ | .styZp _, _ | .staZp _, _ | .stxZp _, _ | .saxZp _, _ | .styAbs _ _, _
  | .staAbs _ _, _ | .stxAbs _ _, _ | .saxAbs _ _, _ | .staIzy _, _ | .styZpx _, _ | .staZpx _, _ | .stxZpy _, _
  | .saxZpy _, _ | .staAby _ _, _ | .staAbx _ _, _ =>
    .of_completes rfl rfl ⟨rfl, rfl⟩ fun d => .write d rfl rfl rfl
  | .sloIzx _, _ | .aslZp _, _ | .sloZp _, _ | .aslAbs _ _, _ | .sloAbs _ _, _ | .sloIzy _, _ | .aslZpx _, _
  | .sloZpx _, _ | .sloAby _ _, _ | .aslAbx _ _, _ | .sloAbx _ _, _ | .rlaIzx _, _ | .rolZp _, _ | .rlaZp _, _
  | .rolAbs _ _, _ | .rlaAbs _ _, _ | .rlaIzy _, _ | .rolZpx _, _ | .rlaZpx _, _ | .rlaAby _ _, _ | .rolAbx _ _, _
  | .rlaAbx _ _, _ | .sreIzx _, _ | .lsrZp _, _ | .sreZp _, _ | .lsrAbs _ _, _ | .sreAbs _ _, _ | .sreIzy _, _
  | .lsrZpx _, _ | .sreZpx _, _ | .sreAby _ _, _ | .lsrAbx _ _, _ | .sreAbx _ _, _ | .rraIzx _, _ | .rorZp _, _
  | .rraZp _, _ | .rorAbs _ _, _ | .rraAbs _ _, _ | .rraIzy _, _ | .rorZpx _, _ | .rraZpx _, _ | .rraAby _ _, _
  | .rorAbx _ _, _ | .rraAbx _ _, _ | .dcpIzx _, _ | .decZp _, _ | .dcpZp _, _ | .decAbs _ _, _ | .dcpAbs _ _, _
  | .dcpIzy _, _ | .decZpx _, _ | .dcpZpx _, _ | .dcpAby _ _, _ | .decAbx _ _, _ | .dcpAbx _ _, _ | .isbIzx _, _
  | .incZp _, _ | .isbZp _, _ | .incAbs _ _, _ | .isbAbs _ _, _ | .isbIzy _, _ | .incZpx _, _ | .isbZpx _, _
  | .isbAby _ _, _ | .incAbx _ _, _ | .isbAbx _ _, _ =>
    .of_completes rfl rfl ⟨rfl, rfl⟩ fun d => .rmw d rfl rfl rfl (fun _ _ => ⟨rfl, rfl⟩) fun _ _ => ⟨rfl, rfl⟩
  | .oraImm _, _ | .ancImm0B _, _ | .andImm _, _ | .ancImm2B _, _ | .eorImm _, _ | .alr _, _ | .adcImm _, _
  | .arr _, _ | .nopImm80 _, _ | .nopImm82 _, _ | .nopImm89 _, _ | .ldyImm _, _ | .ldxImm _, _ | .ldaImm _, _
  | .cpyImm _, _ | .nopImmC2 _, _ | .cmpImm _, _ | .axs _, _ | .cpxImm _, _ | .nopImmE2 _, _ | .sbcImm _, _
  | .sbcImmEB _, _ =>
    .of_completes rfl rfl ⟨rfl, rfl⟩ fun d => .immediate d rfl fun _ _ => ⟨rfl, rfl⟩
  | .aslAcc, _ | .clc, _ | .nopImp1A, _ | .rolAcc, _ | .sec, _ | .nopImp3A, _ | .lsrAcc, _ | .cli, _ | .nopImp5A, _
  | .rorAcc, _ | .sei, _ | .nopImp7A, _ | .dey, _ | .txa, _ | .tya, _ | .txs, _ | .tay, _ | .tax, _ | .clv, _
  | .tsx, _ | .iny, _ | .dex, _ | .cld, _ | .nopImpDA, _ | .inx, _ | .nop, _ | .sed, _ | .nopImpFA, _ =>
    .of_completes rfl rfl ⟨rfl, rfl⟩ fun d => .implied d rfl rfl rfl fun _ => ⟨rfl, rfl⟩
  | .bpl _, _ | .bmi _, _ | .bvc _, _ | .bvs _, _ | .bcc _, _ | .bcs _, _ | .bne _, _ | .beq _, _ =>
    .of_completes rfl rfl ⟨rfl, rfl⟩ fun d => .branch d rfl rfl
  | .pha, s => .of_completes rfl rfl ⟨rfl, rfl⟩ fun d => .own d rfl rfl (takes_runPha s) rfl
  | .php, s => .of_completes rfl rfl ⟨rfl, rfl⟩ fun d => .own d rfl rfl (takes_runPhp s) rfl
  | .pla, s => .of_completes rfl rfl ⟨rfl, rfl⟩ fun d => .own d rfl rfl (takes_runPla s) rfl
  | .plp, s => .of_completes rfl rfl ⟨rfl, rfl⟩ fun d => .own d rfl rfl (takes_runPlp s) rfl
  | .jmpAbs _ _, s => .of_completes rfl rfl ⟨rfl, rfl⟩ fun d => .own d rfl rfl (takes_setPc _ s) rfl
  | .jmpInd lo hi, s => .of_completes rfl rfl ⟨rfl, rfl⟩ fun d => .own d rfl rfl (takes_runJmpInd lo hi s) rfl
  | .jsr target, s => .of_completes rfl rfl ⟨rfl, rfl⟩ fun d => .own d rfl rfl (takes_runJsr (lo8 target) s) rfl
  | .rts, s => .of_completes rfl rfl ⟨rfl, rfl⟩ fun d => .own d rfl rfl (takes_runRts s) rfl
  | .rti, s => .of_completes rfl rfl ⟨rfl, rfl⟩ fun d => .own d rfl rfl (takes_runRti s) rfl
  | .brk, s => .of_completes rfl rfl ⟨rfl, rfl⟩ fun d => .own d rfl rfl (takes_runBrk s) rfl
  | .jam02, _ | .jam12, _ | .jam22, _ | .jam32, _ | .jam42, _ | .jam52, _ | .jam62, _ | .jam72, _ | .jam92, _
  | .jamB2, _ | .jamD2, _ | .jamF2, _ =>
    .of_jam rfl rfl rfl
  | .ane _, _ | .lxa _, _ =>
    .of_unstable rfl rfl ⟨rfl, rfl⟩ rfl fun d => .immediate d rfl fun _ _ => ⟨rfl, rfl⟩
  | .shaAby _ _, _ | .tas _ _, _ => .of_unstable rfl rfl ⟨rfl, rfl⟩ rfl fun d =>
    .highStore_base d rfl rfl rfl rfl rfl (fun _ => ⟨rfl, rfl⟩) fun _ k => k.valueSax
  | .shx _ _, _ => .of_unstable rfl rfl ⟨rfl, rfl⟩ rfl fun d =>
    .highStore_base d rfl rfl rfl rfl rfl (fun _ => ⟨rfl, rfl⟩) fun _ k => k.x
  | .shy _ _, _ => .of_unstable rfl rfl ⟨rfl, rfl⟩ rfl fun d =>
    .highStore_base d rfl rfl rfl rfl rfl (fun _ => ⟨rfl, rfl⟩) fun _ k => k.y
  | .shaIzy b, s => .of_unstable rfl rfl ⟨rfl, rfl⟩ rfl fun d =>
    .highStore (k := 2) d rfl rfl rfl rfl
      (by rw [pointerIzy_fst, (kept_pointerIzy b s).y]; rfl) ((takes_busRead _ s).trans (takes_busRead _ _))
      (kept_pointerIzy b s) (fun _ => ⟨rfl, rfl⟩) fun _ k => k.valueSax

/-- Settles O36: each instruction executes in the cycles of its class, and with its fetch these are those of the
table. -/
theorem cycleCounts : Obligations.CycleCounts := by
  intro i s quiet elsewhere
  obtain ⟨t, completes, cycles⟩ := exec_counted i s quiet elsewhere
  refine ⟨t, completes, ?_⟩
  rw [cycleTable_getD]
  split
  case isTrue halts =>
    rw [cycles, if_pos halts]
    rfl
  case isFalse goesOn =>
    rw [cycles, if_neg goesOn]
    omega

end Sys2Proof.Machine
end

section
/-! PROOFS about loads, stores, transfers and the stack instructions (`LoadResults`, `StoreResults`, `TransferResults`,
`StackResults`). -/

namespace Sys2Proof.Machine

/-! ### Loads -/

/-- `A <- v; setNZ(A)` on the registers `c`. -/
theorem opLda_withCpu (c : Cpu) (v : Byte) (u : State) :
    opLda v (u.withCpu c) = u.withCpu { c with a := v, p := c.p.setNZ v } := rfl

/-- `X <- v; setNZ(X)` on the registers `c`. -/
theorem opLdx_withCpu (c : Cpu) (v : Byte) (u : State) :
    opLdx v (u.withCpu c) = u.withCpu { c with x := v, p := c.p.setNZ v } := rfl

/-- `Y <- v; setNZ(Y)` on the registers `c`. -/
theorem opLdy_withCpu (c : Cpu) (v : Byte) (u : State) :
    opLdy v (u.withCpu c) = u.withCpu { c with y := v, p := c.p.setNZ v } := rfl

/-- Settles O1: every encoding is the load of its register, in the read class at its mode or with the immediate byte. -/
theorem loadResults : Obligations.LoadResults := by
  intro s b lo hi
  have lda := opLda_withCpu s.cpu
  have ldx := opLdx_withCpu s.cpu
  have ldy := opLdy_withCpu s.cpu
  simp only [List.forall_mem_cons]
  refine ⟨?lda, ?ldaImm, ?ldx, ?ldxImm, ?ldy, ?ldyImm⟩
  case lda =>
    exact ⟨readGives (eaIzx b) opLda rfl rfl (kept_eaIzx b s) lda,
      readGives (eaZp b) opLda rfl rfl (kept_eaZp b s) lda,
      readGives (eaAbs lo hi) opLda rfl rfl (kept_eaAbs lo hi s) lda,
      readGives (eaIzy .read b) opLda rfl rfl (kept_eaIzy .read b s) lda,
      readGives (eaZpx b) opLda rfl rfl (kept_eaZpx b s) lda,
      readGives (eaAby .read lo hi) opLda rfl rfl (kept_eaAby .read lo hi s) lda,
      readGives (eaAbx .read lo hi) opLda rfl rfl (kept_eaAbx .read lo hi s) lda, List.forall_mem_nil _⟩
  case ldaImm => exact immediateGives opLda b rfl rfl (lda b s)
  case ldx =>
    exact ⟨readGives (eaZp b) opLdx rfl rfl (kept_eaZp b s) ldx,
      readGives (eaAbs lo hi) opLdx rfl rfl (kept_eaAbs lo hi s) ldx,
      readGives (eaZpy b) opLdx rfl rfl (kept_eaZpy b s) ldx,
      readGives (eaAby .read lo hi) opLdx rfl rfl (kept_eaAby .read lo hi s) ldx, List.forall_mem_nil _⟩
  case ldxImm => exact immediateGives opLdx b rfl rfl (ldx b s)
  case ldy =>
    exact ⟨readGives (eaZp b) opLdy rfl rfl (kept_eaZp b s) ldy,
      readGives (eaAbs lo hi) opLdy rfl rfl (kept_eaAbs lo hi s) ldy,
      readGives (eaZpx b) opLdy rfl rfl (kept_eaZpx b s) ldy,
      readGives (eaAbx .read lo hi) opLdy rfl rfl (kept_eaAbx .read lo hi s) ldy, List.forall_mem_nil _⟩
  case ldyImm => exact immediateGives opLdy b rfl rfl (ldy b s)

/-! ### Stores -/

/-- A value that forming the address keeps is stored as it stood before. -/
theorem writeGives_kept {op : Byte} {i : Instr} {s : State} {value : State → Byte} (ea : State → Word × State)
    (hop : i.opcode = op) (he : exec i s = writeClass ea value s) (hk : Kept s (ea s).2)
    (hv : ∀ {u}, Kept s u → value u = value s) : WriteGives op i (ea s) s (value s) s.cpu :=
  writeGives ea value hop he hk (hv hk)

/-- Settles O2: every encoding is the store of its register, in the write class at its mode. -/
theorem storeResults : Obligations.StoreResults := by
  intro s b lo hi
  simp only [List.forall_mem_cons]
  refine ⟨?sta, ?stx, ?sty⟩
  case sta =>
    exact ⟨writeGives_kept (eaIzx b) rfl rfl (kept_eaIzx b s) Kept.a,
      writeGives_kept (eaZp b) rfl rfl (kept_eaZp b s) Kept.a,
      writeGives_kept (eaAbs lo hi) rfl rfl (kept_eaAbs lo hi s) Kept.a,
      writeGives_kept (eaIzy .write b) rfl rfl (kept_eaIzy .write b s) Kept.a,
      writeGives_kept (eaZpx b) rfl rfl (kept_eaZpx b s) Kept.a,
      writeGives_kept (eaAby .write lo hi) rfl rfl (kept_eaAby .write lo hi s) Kept.a,
      writeGives_kept (eaAbx .write lo hi) rfl rfl (kept_eaAbx .write lo hi s) Kept.a, List.forall_mem_nil _⟩
  case stx =>
    exact ⟨writeGives_kept (eaZp b) rfl rfl (kept_eaZp b s) Kept.x,
      writeGives_kept (eaAbs lo hi) rfl rfl (kept_eaAbs lo hi s) Kept.x,
      writeGives_kept (eaZpy b) rfl rfl (kept_eaZpy b s) Kept.x, List.forall_mem_nil _⟩
  case sty =>
    exact ⟨writeGives_kept (eaZp b) rfl rfl (kept_eaZp b s) Kept.y,
      writeGives_kept (eaAbs lo hi) rfl rfl (kept_eaAbs lo hi s) Kept.y,
      writeGives_kept (eaZpx b) rfl rfl (kept_eaZpx b s) Kept.y, List.forall_mem_nil _⟩

/-! ### Transfers -/

/-- Settles O3: after the dummy read each transfer loads its destination with its source, or sets `S`. -/
theorem transferResults : Obligations.TransferResults := by
  intro s
  refine ⟨?tax, ?tay, ?txa, ?tya, ?tsx, ?txs⟩
  case tax => exact impliedGives opTax rfl rfl (opLdx_withCpu s.cpu s.a)
  case tay => exact impliedGives opTay rfl rfl (opLdy_withCpu s.cpu s.a)
  case txa => exact impliedGives opTxa rfl rfl (opLda_withCpu s.cpu s.x)
  case tya => exact impliedGives opTya rfl rfl (opLda_withCpu s.cpu s.y)
  case tsx => exact impliedGives opTsx rfl rfl (opLdx_withCpu s.cpu s.s)
  case txs => exact impliedGives opTxs rfl rfl fun _ => rfl

/-! ### The stack instructions, one rule for pushes and one for pulls -/

/-- `op` is the opcode of `i`, which pushes `v` after its dummy read: `S` goes down by one, one byte of the stack page
is stored to, and it holds `v` (41_load_store_transfer.md R192, R193). -/
def PushGives (op : Byte) (i : Instr) (s : State) (v : Byte) : Prop :=
  let t := (push v (dummyRead s.pc s)).withCpu { s.cpu with s := s.s - 1 }
  i.opcode = op ∧ exec i s = .next t ∧ SameMemBut [(.ram, 256 + s.s.toNat)] s t ∧
    (s.ram.wf → t.ram.read (256 + s.s.toNat) = v)

/-- `op` is the opcode of `i`, which pulls a byte after its two dummy reads: the registers become `post` of the byte
above `S`, and nothing is stored to (41_load_store_transfer.md R194, R195). -/
def PullGives (op : Byte) (i : Instr) (s : State) (post : Byte → Cpu) : Prop :=
  let t := (pull (dummyStackRead (dummyRead s.pc s))).2.withCpu (post (s.ram.read (256 + (s.s + 1).toNat)))
  i.opcode = op ∧ exec i s = .next t ∧ SameMem s t

section
variable {op : Byte} {i : Instr} {s : State}

/-- The dummy read keeps `S` and the memories, so the push finds them as they were. -/
theorem pushGives {v : Byte} (hop : i.opcode = op) (he : exec i s = .next (push v (dummyRead s.pc s))) :
    PushGives op i s v := by
  have k := kept_dummyRead s.pc s
  have hcpu : (push v (dummyRead s.pc s)).cpu = { s.cpu with s := s.s - 1 } := by rw [push_cpu, k.cpu, k.s]
  have hmem := push_mem v (dummyRead s.pc s)
  rw [k.s] at hmem
  rw [PushGives, State.withCpu_eq hcpu]
  refine ⟨hop, he, .before k.byteAt hmem, fun hwf => ?_⟩
  rw [push_ram, k.ram, k.s, Memory.read_write_same _ _ _ hwf]

/-- The byte pulled is that of the memory before, and the operation `f` finds the registers with `S` moved up. -/
theorem pullGives {post : Byte → Cpu} (f : Byte → State → State) (hop : i.opcode = op)
    (he : exec i s =
      .next (f (pull (dummyStackRead (dummyRead s.pc s))).1 (pull (dummyStackRead (dummyRead s.pc s))).2))
    (hf : ∀ v (u : State), f v (u.withCpu { s.cpu with s := s.s + 1 }) = u.withCpu (post v)) :
    PullGives op i s post := by
  obtain ⟨value, k⟩ := pull_of_kept (kept_beforePull s)
  rw [PullGives, ← value]
  generalize pull (dummyStackRead (dummyRead s.pc s)) = r at he k ⊢
  have hcpu : r.2.cpu = { s.cpu with s := s.s + 1 } := k.cpu
  have pulled := hf r.1 r.2
  rw [State.withCpu_eq hcpu] at pulled
  exact ⟨hop, he.trans (congrArg _ pulled), SameMem.withCpu _ k.byteAt⟩

end

/-- Settles O4: two pushes, of registers that the dummy read keeps, and two pulls. -/
theorem stackResults : Obligations.StackResults := by
  intro s
  have k := kept_dummyRead s.pc s
  have pha : exec .pha s = .next (push s.a (dummyRead s.pc s)) := by
    rw [← k.a]
    rfl
  have php : exec .php s = .next (push (s.p.pushed true) (dummyRead s.pc s)) := by
    rw [← k.p]
    rfl
  have pla : PullGives 0x68 .pla s fun v => { s.cpu with s := s.s + 1, a := v, p := s.p.setNZ v } :=
    pullGives opLda rfl rfl (opLda_withCpu _)
  have plp : PullGives 0x28 .plp s fun v => { s.cpu with s := s.s + 1, p := Flags.ofByte v } :=
    pullGives (fun v u => u.setP (Flags.ofByte v)) rfl rfl fun _ _ => rfl
  exact ⟨pushGives rfl pha, pushGives rfl php, pla, plp⟩

end Sys2Proof.Machine
end

section
/-! PROOFS about arithmetic, logic, compares, increments and shifts (`AddSubtractResults`, `ArithmeticMeaning`,
`LogicResults`, `CompareResults`, `IncrementResults`, `ShiftResults`). An instruction comes as a family of encodings that
run one operation at the addresses of different modes: a family completes when the operation does. That its opcodes and
arms of `exec` are those of the family holds by evaluation. -/

namespace Sys2Proof.Machine

/-! ### Families of encodings: the opcode, the instruction, and the address and state of its mode -/

/-- The read class at an address and state. -/
def readAt (ea : Word × State) (f : Byte → State → State) : Result :=
  .next (f (busRead ea.1 ea.2).1 (busRead ea.1 ea.2).2)

theorem readClass_eq_readAt (ea : State → Word × State) (f : Byte → State → State) (s : State) :
    readClass ea f s = readAt (ea s) f := rfl

/-- The read-modify-write class at an address and state. -/
def modifyAt (ea : Word × State) (f : Byte → State → Byte × State) (after : Byte → State → State) : Result :=
  let r := busRead ea.1 ea.2
  let m := f r.1 (busWrite ea.1 r.1 r.2)
  .next (after m.1 (busWrite ea.1 m.1 m.2))

theorem rmwClass_eq_modifyAt (ea : State → Word × State) (f : Byte → State → Byte × State)
    (after : Byte → State → State) (s : State) : rmwClass ea f after s = modifyAt (ea s) f after := rfl

section
variable {s : State} {forms : List (Byte × Instr × Word × State)}

/-- The opcodes are those of the instructions, all in the read class with the operation `f`. -/
theorem readGives_family {post : Byte → Cpu} (f : Byte → State → State)
    (hk : ∀ e ∈ forms.map fun x => x.2.2, Kept s e.2)
    (hop : forms.map (fun x => x.2.1.opcode) = forms.map fun x => x.1)
    (he : forms.map (fun x => exec x.2.1 s) = forms.map fun x => readAt x.2.2 f)
    (hf : ∀ v (u : State), f v (u.withCpu s.cpu) = u.withCpu (post v)) :
    ∀ x ∈ forms, ReadGives x.1 x.2.1 x.2.2 s post := by
  intro x hx
  have runs := (List.map_inj_left.mp he x hx).trans (readClass_eq_readAt (fun _ => x.2.2) f s).symm
  exact readGives (fun _ => x.2.2) f (List.map_inj_left.mp hop x hx) runs (hk _ (List.mem_map_of_mem hx)) hf

/-- The opcodes are those of the instructions, all in the read-modify-write class with the operation `f`, followed by
the second operation `after`. -/
theorem modifyGives_family {result : Byte → Byte} {flags : Byte → Flags} {post : Byte → Cpu}
    (f : Byte → State → Byte × State) (after : Byte → State → State)
    (hk : ∀ e ∈ forms.map fun x => x.2.2, Kept s e.2)
    (hop : forms.map (fun x => x.2.1.opcode) = forms.map fun x => x.1)
    (he : forms.map (fun x => exec x.2.1 s) = forms.map fun x => modifyAt x.2.2 f after)
    (hf : ∀ v (u : State), f v (u.withCpu s.cpu) = (result v, u.withCpu { s.cpu with p := flags v }))
    (ha : ∀ v (u : State), after (result v) (u.withCpu { s.cpu with p := flags v }) = u.withCpu (post v)) :
    ∀ x ∈ forms, ModifyGives x.1 x.2.1 x.2.2 s result flags post := by
  intro x hx
  have runs := (List.map_inj_left.mp he x hx).trans (rmwClass_eq_modifyAt (fun _ => x.2.2) f after s).symm
  exact modifyGives (fun _ => x.2.2) f after (List.map_inj_left.mp hop x hx) runs (hk _ (List.mem_map_of_mem hx)) hf ha

end

/-- The memory modes of the operations on `A` with a byte. -/
theorem kept_accumulatorModes (b lo hi : Byte) (s : State) :
    ∀ e ∈ [eaIzx b s, eaZp b s, eaAbs lo hi s, eaIzy .read b s, eaZpx b s, eaAby .read lo hi s, eaAbx .read lo hi s],
      Kept s e.2 := by
  simp only [List.forall_mem_cons]
  exact ⟨kept_eaIzx b s, kept_eaZp b s, kept_eaAbs lo hi s, kept_eaIzy .read b s, kept_eaZpx b s,
    kept_eaAby .read lo hi s, kept_eaAbx .read lo hi s, List.forall_mem_nil _⟩

/-- The memory modes of CPX, CPY and BIT. -/
theorem kept_directModes (b lo hi : Byte) (s : State) : ∀ e ∈ [eaZp b s, eaAbs lo hi s], Kept s e.2 := by
  simp only [List.forall_mem_cons]
  exact ⟨kept_eaZp b s, kept_eaAbs lo hi s, List.forall_mem_nil _⟩

/-- The memory modes of the increments, decrements, shifts and rotates. -/
theorem kept_modifyModes (b lo hi : Byte) (s : State) :
    ∀ e ∈ [eaZp b s, eaAbs lo hi s, eaZpx b s, eaAbx .rmw lo hi s], Kept s e.2 := by
  simp only [List.forall_mem_cons]
  exact ⟨kept_eaZp b s, kept_eaAbs lo hi s, kept_eaZpx b s, kept_eaAbx .rmw lo hi s, List.forall_mem_nil _⟩

/-! ### Addition and subtraction -/

theorem carryNat_eq_toNat (c : Bool) : carryNat c = c.toNat := by cases c <;> rfl

/-- `A <- AddWithCarry(A, v, C)` on the registers `c`. -/
theorem opAdc_withCpu (c : Cpu) (v : Byte) (u : State) :
    opAdc v (u.withCpu c) =
      u.withCpu { c with a := addResult c.a v c.p.c, p := c.p.addWithCarry c.a v c.p.c } := rfl

/-- Settles O5: SBC is ADC of the complement, and D is not read. -/
theorem addSubtractResults : Obligations.AddSubtractResults := by
  intro s b lo hi add
  have adc (v : Byte) (u : State) : opAdc v (u.withCpu s.cpu) = u.withCpu (add v) := by
    simp only [opAdc_withCpu, add, addResult, Flags.addWithCarry, carryNat_eq_toNat]
    rfl
  have sbc (v : Byte) (u : State) : opSbc v (u.withCpu s.cpu) = u.withCpu (add (v ^^^ 0xFF)) := adc _ u
  refine ⟨?adc, ?adcImm, ?sbc, ?sbcImm, ?sbcImmEB⟩
  case adc => exact readGives_family opAdc (kept_accumulatorModes b lo hi s) rfl rfl adc
  case adcImm => exact immediateGives opAdc b rfl rfl (adc b s)
  case sbc => exact readGives_family opSbc (kept_accumulatorModes b lo hi s) rfl rfl sbc
  case sbcImm => exact immediateGives opSbc b rfl rfl (sbc b s)
  case sbcImmEB => exact immediateGives opSbc b rfl rfl (sbc b s)

/-! ### What the sum and its flags report -/

theorem getLsbD_seven (v : Byte) : v.getLsbD 7 = decide (128 ≤ v.toNat) :=
  (BitVec.msb_eq_getLsbD_last v).symm.trans (BitVec.msb_eq_decide v)

theorem xor_eq_true_iff (x y : Bool) : (x ^^ y) = true ↔ ¬x = y := by cases x <;> cases y <;> decide

theorem setNZ_n_iff (r : Byte) (f : Flags) : (f.setNZ r).n = true ↔ 128 ≤ r.toNat := by
  rw [Flags.setNZ, getLsbD_seven, decide_eq_true_eq]

theorem setNZ_z_iff (r : Byte) (f : Flags) : (f.setNZ r).z = true ↔ r.toNat = 0 := by
  rw [Flags.setNZ, beq_iff_eq, BitVec.toNat_eq]
  rfl

section
variable (a v : Byte) (c : Bool) (f : Flags)

theorem addResult_toNat : (addResult a v c).toNat = (a.toNat + v.toNat + c.toNat) % 256 := by
  rw [addResult, BitVec.toNat_ofNat, carryNat_eq_toNat]

theorem addWithCarry_c_iff : (f.addWithCarry a v c).c = true ↔ 255 < a.toNat + v.toNat + c.toNat := by
  rw [← carryNat_eq_toNat]
  exact decide_eq_true_iff

/-- Both operands differ in sign from the result. -/
theorem addWithCarry_v_iff_signs :
    (f.addWithCarry a v c).v = true ↔
      ¬(128 ≤ a.toNat ↔ 128 ≤ (addResult a v c).toNat) ∧ ¬(128 ≤ v.toNat ↔ 128 ≤ (addResult a v c).toNat) := by
  rw [Flags.addWithCarry, Flags.setNZ, BitVec.getLsbD_and, BitVec.getLsbD_xor, BitVec.getLsbD_xor]
  simp only [getLsbD_seven, Bool.and_eq_true, xor_eq_true_iff, decide_eq_decide]

/-- V is set where the exact signed sum does not fit a byte. -/
theorem addWithCarry_v_iff :
    (f.addWithCarry a v c).v = true ↔
      a.toInt + v.toInt + c.toNat < -128 ∨ 127 < a.toInt + v.toInt + c.toNat := by
  have carry := c.toNat_le
  have := a.isLt
  have := v.isLt
  rw [addWithCarry_v_iff_signs, addResult_toNat, BitVec.toInt_eq_toNat_cond, BitVec.toInt_eq_toNat_cond]
  split <;> split <;> omega

end

/-! The complement of the operand makes an addition a subtraction (42_arith_logic_shift.md R213). -/

theorem complement_toNat (v : Byte) : (v ^^^ 0xFF).toNat = 255 - v.toNat := by
  rw [show (0xFF : Byte) = BitVec.allOnes 8 from rfl, BitVec.xor_allOnes, BitVec.toNat_not]

theorem complement_toInt (v : Byte) : (v ^^^ 0xFF).toInt = -1 - v.toInt := by
  have := v.isLt
  rw [BitVec.toInt_eq_toNat_cond, BitVec.toInt_eq_toNat_cond, complement_toNat]
  split <;> split <;> omega

/-- Settles O6: the sum by its value in ℕ and ℤ, the difference as the sum with the complement. -/
theorem arithmeticMeaning : Obligations.ArithmeticMeaning := by
  intro a v c f
  refine ⟨?sum, ?difference⟩
  case sum =>
    exact ⟨addResult_toNat a v c, addWithCarry_c_iff a v c f, addWithCarry_v_iff a v c f, setNZ_n_iff _ _,
      setNZ_z_iff _ _, rfl, rfl⟩
  case difference =>
    have carry := c.toNat_le
    have := v.isLt
    dsimp only
    rw [addResult_toNat, addWithCarry_c_iff, addWithCarry_v_iff, complement_toNat, complement_toInt]
    omega

/-! ### Logic -/

/-- Settles O7: each operation is the load of `A` with its result. -/
theorem logicResults : Obligations.LogicResults := by
  intro s b lo hi
  have lda (v : Byte) := opLda_withCpu s.cpu v
  refine ⟨?and, ?andImm, ?ora, ?oraImm, ?eor, ?eorImm⟩
  case and => exact readGives_family opAnd (kept_accumulatorModes b lo hi s) rfl rfl fun v => lda (s.a &&& v)
  case andImm => exact immediateGives opAnd b rfl rfl (lda (s.a &&& b) s)
  case ora => exact readGives_family opOra (kept_accumulatorModes b lo hi s) rfl rfl fun v => lda (s.a ||| v)
  case oraImm => exact immediateGives opOra b rfl rfl (lda (s.a ||| b) s)
  case eor => exact readGives_family opEor (kept_accumulatorModes b lo hi s) rfl rfl fun v => lda (s.a ^^^ v)
  case eorImm => exact immediateGives opEor b rfl rfl (lda (s.a ^^^ b) s)

/-! ### Compares -/

/-- `Compare(A, v)` on the registers `c`. -/
theorem opCmp_withCpu (c : Cpu) (v : Byte) (u : State) :
    opCmp v (u.withCpu c) = u.withCpu { c with p := c.p.compare c.a v } := rfl

/-- `Compare(X, v)` on the registers `c`. -/
theorem opCpx_withCpu (c : Cpu) (v : Byte) (u : State) :
    opCpx v (u.withCpu c) = u.withCpu { c with p := c.p.compare c.x v } := rfl

/-- `Compare(Y, v)` on the registers `c`. -/
theorem opCpy_withCpu (c : Cpu) (v : Byte) (u : State) :
    opCpy v (u.withCpu c) = u.withCpu { c with p := c.p.compare c.y v } := rfl

/-- `BIT` on the registers `c`. -/
theorem opBit_withCpu (c : Cpu) (v : Byte) (u : State) :
    opBit v (u.withCpu c) = u.withCpu { c with p := c.p.bitTest c.a v } := rfl

/-- Settles O8: the operations set the flags alone. -/
theorem compareResults : Obligations.CompareResults := by
  intro s b lo hi compare
  have cmp := opCmp_withCpu s.cpu
  have cpx := opCpx_withCpu s.cpu
  have cpy := opCpy_withCpu s.cpu
  refine ⟨?cmp, ?cmpImm, ?cpx, ?cpxImm, ?cpy, ?cpyImm, ?bit⟩
  case cmp => exact readGives_family opCmp (kept_accumulatorModes b lo hi s) rfl rfl cmp
  case cmpImm => exact immediateGives opCmp b rfl rfl (cmp b s)
  case cpx => exact readGives_family opCpx (kept_directModes b lo hi s) rfl rfl cpx
  case cpxImm => exact immediateGives opCpx b rfl rfl (cpx b s)
  case cpy => exact readGives_family opCpy (kept_directModes b lo hi s) rfl rfl cpy
  case cpyImm => exact immediateGives opCpy b rfl rfl (cpy b s)
  case bit => exact readGives_family opBit (kept_directModes b lo hi s) rfl rfl (opBit_withCpu s.cpu)

/-! ### Increments and decrements -/

/-- `INC` on the registers `c`. -/
theorem modInc_withCpu (c : Cpu) (v : Byte) (u : State) :
    modInc v (u.withCpu c) = (v + 1, u.withCpu { c with p := c.p.setNZ (v + 1) }) := rfl

/-- `DEC` on the registers `c`. -/
theorem modDec_withCpu (c : Cpu) (v : Byte) (u : State) :
    modDec v (u.withCpu c) = (v - 1, u.withCpu { c with p := c.p.setNZ (v - 1) }) := rfl

/-- Settles O9: on memory the flags come with the result; on a register the result is loaded. -/
theorem incrementResults : Obligations.IncrementResults := by
  intro s b lo hi
  refine ⟨?inc, ?dec, ?inx, ?iny, ?dex, ?dey⟩
  case inc =>
    exact modifyGives_family modInc noAfter (kept_modifyModes b lo hi s) rfl rfl (modInc_withCpu s.cpu) fun _ _ => rfl
  case dec =>
    exact modifyGives_family modDec noAfter (kept_modifyModes b lo hi s) rfl rfl (modDec_withCpu s.cpu) fun _ _ => rfl
  case inx => exact impliedGives opInx rfl rfl (opLdx_withCpu s.cpu (s.x + 1))
  case iny => exact impliedGives opIny rfl rfl (opLdy_withCpu s.cpu (s.y + 1))
  case dex => exact impliedGives opDex rfl rfl (opLdx_withCpu s.cpu (s.x - 1))
  case dey => exact impliedGives opDey rfl rfl (opLdy_withCpu s.cpu (s.y - 1))

/-! ### Shifts and rotates -/

/-- The bit shifted in on the right. -/
theorem shiftLeft_eq (v : Byte) (c : Bool) : shiftLeft v c = (v <<< 1) ||| (if c then 1 else 0) := by cases c <;> rfl

/-- The bit shifted in on the left. -/
theorem shiftRight_eq (v : Byte) (c : Bool) : shiftRight v c = (v >>> 1) ||| (if c then 0x80 else 0) := by
  cases c <;> rfl

/-- The accumulator form has the flags of the operation, and its result in `A`. -/
theorem onA_withCpu {f : Byte → State → Byte × State} {c : Cpu} {result : Byte} {flags : Flags} {u : State}
    (h : f c.a (u.withCpu c) = (result, u.withCpu { c with p := flags })) :
    onA f (u.withCpu c) = u.withCpu { c with a := result, p := flags } := by
  rw [onA, State.withCpu_a, h]
  rfl

/-- Settles O10: each shift by its operation on a byte, which memory and `A` share. -/
theorem shiftResults : Obligations.ShiftResults := by
  intro s b lo hi left right flags
  have shiftedLeft (v : Byte) (c : Bool) (u : State) :
      (shiftLeft v c, (u.withCpu s.cpu).setP (s.p.shiftLeft v c)) =
        (left c v, u.withCpu { s.cpu with p := flags (v.getLsbD 7) (left c v) }) := by
    rw [Flags.shiftLeft, shiftLeft_eq]
    rfl
  have shiftedRight (v : Byte) (c : Bool) (u : State) :
      (shiftRight v c, (u.withCpu s.cpu).setP (s.p.shiftRight v c)) =
        (right c v, u.withCpu { s.cpu with p := flags (v.getLsbD 0) (right c v) }) := by
    rw [Flags.shiftRight, shiftRight_eq]
    rfl
  refine ⟨?asl, ?aslAcc, ?lsr, ?lsrAcc, ?rol, ?rolAcc, ?ror, ?rorAcc⟩
  case asl =>
    exact modifyGives_family modAsl noAfter (kept_modifyModes b lo hi s) rfl rfl (shiftedLeft · false) fun _ _ => rfl
  case aslAcc => exact impliedGives accAsl rfl rfl fun u => onA_withCpu (shiftedLeft s.a false u)
  case lsr =>
    exact modifyGives_family modLsr noAfter (kept_modifyModes b lo hi s) rfl rfl (shiftedRight · false) fun _ _ => rfl
  case lsrAcc => exact impliedGives accLsr rfl rfl fun u => onA_withCpu (shiftedRight s.a false u)
  case rol =>
    exact modifyGives_family modRol noAfter (kept_modifyModes b lo hi s) rfl rfl (shiftedLeft · s.p.c) fun _ _ => rfl
  case rolAcc => exact impliedGives accRol rfl rfl fun u => onA_withCpu (shiftedLeft s.a s.p.c u)
  case ror =>
    exact modifyGives_family modRor noAfter (kept_modifyModes b lo hi s) rfl rfl (shiftedRight · s.p.c) fun _ _ => rfl
  case rorAcc => exact impliedGives accRor rfl rfl fun u => onA_withCpu (shiftedRight s.a s.p.c u)

end Sys2Proof.Machine
end

section
/-! PROOFS about branches, jumps, calls and returns, the entry by BRK, the flag instructions and the NOPs
(`BranchResults`, `JumpCallReturnResults`, `BreakEntersHandler`, `ReturnFromInterruptRestores`, `FlagAndNopResults`).
The sequences that change `PC` are said once each, as bus cycles and then the registers. -/

namespace Sys2Proof.Machine

/-! ### Register changes, pushes and pulls -/

/-- Setting `PC` shows in no other registers that replace it. -/
theorem State.withCpu_setPc (c : Cpu) (v : Word) (t : State) : (t.setPc v).withCpu c = t.withCpu c := rfl

/-- Holding back the next service is a change of the registers. -/
theorem State.withCpu_hold (c : Cpu) (t : State) :
    { t.withCpu c with noServiceNext := true } = t.withCpu { c with noServiceNext := true } := rfl

/-- Bytes of memory are not registers. -/
theorem SameMemBut.of_withCpu {s t : State} {c : Cpu} {cells : List (Space × Nat)}
    (h : SameMemBut cells s (t.withCpu c)) : SameMemBut cells s t :=
  fun sp n hn => (State.withCpu_byteAt c t sp n).symm.trans (h sp n hn)

/-- Two pushes store to two bytes of the stack page. -/
theorem push_push_mem (u v : Byte) (s : State) :
    SameMemBut [(.ram, 256 + s.s.toNat), (.ram, 256 + (s.s - 1).toNat)] s (push v (push u s)) := by
  have lower : (push u s).s = s.s - 1 := congrArg Cpu.s (push_cpu u s)
  have second := push_mem v (push u s)
  rw [lower] at second
  exact (push_mem u s).trans second

/-- Two pulls store nothing. -/
theorem pull_pull_mem (s : State) : SameMem s (pull (pull s).2).2 := (pull_mem _).trans (pull_mem _)

/-! ### Branches -/

/-- Settles O11: the eight are one branch, each under its own condition. -/
theorem branchResults : Obligations.BranchResults := by
  intro s b
  simp only [List.forall_mem_cons]
  exact ⟨⟨rfl, branch_spec (!s.p.n) b s⟩, ⟨rfl, branch_spec s.p.n b s⟩, ⟨rfl, branch_spec (!s.p.v) b s⟩,
    ⟨rfl, branch_spec s.p.v b s⟩, ⟨rfl, branch_spec (!s.p.c) b s⟩, ⟨rfl, branch_spec s.p.c b s⟩,
    ⟨rfl, branch_spec (!s.p.z) b s⟩, ⟨rfl, branch_spec s.p.z b s⟩, List.forall_mem_nil _⟩

/-! ### Jumps, calls and returns -/

/-- `JMP ($nnnn)`: the reads of the pointer, then `PC`. -/
theorem runJmpInd_eq (lo hi : Byte) (s : State) :
    runJmpInd lo hi s = (targetInd lo hi s).2.withCpu { s.cpu with pc := (targetInd lo hi s).1 } :=
  State.setPc_eq _ (kept_targetInd lo hi s).cpu

/-- The state in which `JSR` reads the high byte of its target: after its pushes (43_control_flags.md R260). -/
def jsrPushed (s : State) : State := push (lo8 s.pc) (push (hi8 s.pc) (dummyStackRead s))

theorem jsrPushed_cpu (s : State) : (jsrPushed s).cpu = { s.cpu with s := s.s - 2 } := by
  have k := kept_dummyStackRead s
  obtain ⟨cpu, -⟩ := push_push_spec (hi8 s.pc) (lo8 s.pc) (dummyStackRead s)
  rw [jsrPushed, cpu, k.cpu, k.s]

theorem jsrPushed_mem (s : State) :
    SameMemBut [(.ram, 256 + s.s.toNat), (.ram, 256 + (s.s - 1).toNat)] s (jsrPushed s) := by
  have k := kept_dummyStackRead s
  have stored := push_push_mem (hi8 s.pc) (lo8 s.pc) (dummyStackRead s)
  rw [k.s] at stored
  exact .before k.byteAt stored

/-- `JSR`: the pushes, the read of the target's high byte at the `PC` they kept, then the registers. -/
theorem runJsr_eq (lo : Byte) (s : State) :
    runJsr lo s =
      (busRead s.pc (jsrPushed s)).2.withCpu
        { s.cpu with s := s.s - 2, pc := mk16 (busRead s.pc (jsrPushed s)).1 lo } := by
  have k := kept_dummyStackRead s
  have pc1 : (push (hi8 s.pc) (dummyStackRead s)).pc = s.pc := (congrArg Cpu.pc (push_cpu _ _)).trans k.pc
  have pc2 : (push (lo8 s.pc) (push (hi8 s.pc) (dummyStackRead s))).pc = s.pc := congrArg Cpu.pc (jsrPushed_cpu s)
  simp only [runJsr, k.pc, pc1, pc2]
  exact State.setPc_eq _ ((kept_busRead _ _).cpu.trans (jsrPushed_cpu s))

/-- `RTS`: the pulls, the dummy read at the address they form, then the registers. -/
theorem runRts_eq (s : State) :
    let target := mk16 (s.ram.read (256 + (s.s + 2).toNat)) (s.ram.read (256 + (s.s + 1).toNat))
    runRts s =
      (dummyRead target (pull (pull (dummyStackRead (dummyRead s.pc s))).2).2).withCpu
        { s.cpu with s := s.s + 2, pc := target + 1 } := by
  obtain ⟨lo, k1⟩ := pull_of_kept (kept_beforePull s)
  obtain ⟨hi, -⟩ := pull_of_kept k1
  rw [State.setS_s, State.setS_ram, add_one_one] at hi
  rw [← State.withCpu_eq (runRts_cpu s)]
  simp only [runRts, lo, hi, State.withCpu_setPc]

/-- Settles O12: each sequence as its bus cycles and then the registers, and the memories as those cycles leave them. -/
theorem jumpCallReturnResults : Obligations.JumpCallReturnResults := by
  intro s lo hi
  refine ⟨⟨rfl, rfl⟩, ?jmpInd, ?jsr, ?rts⟩
  case jmpInd =>
    exact ⟨rfl, congrArg Host.Outcome.next (runJmpInd_eq lo hi s), .withCpu _ (kept_targetInd lo hi s).byteAt⟩
  case jsr =>
    have runs : exec (.jsr (hi ++ lo)) s = .next (runJsr (lo8 (mk16 hi lo)) s) := rfl
    have stored := (jsrPushed_mem s).after (kept_busRead s.pc (jsrPushed s)).byteAt
    obtain ⟨-, ram⟩ := runJsr_spec lo s
    rw [lo8_mk16, runJsr_eq] at runs
    rw [runJsr_eq] at ram
    refine ⟨rfl, runs, stored.withCpu _, fun hwf => ?_⟩
    have back := read_pushed_two s.s (hi8 s.pc) (lo8 s.pc) s.ram hwf
    rw [← ram] at back
    exact back
  case rts =>
    have kept := (kept_beforePull s).byteAt.trans (pull_pull_mem _)
    exact ⟨rfl, congrArg Host.Outcome.next (runRts_eq s), .withCpu _ (kept.trans (kept_dummyRead _ _).byteAt)⟩

/-! ### BRK and RTI -/

/-- Settles O13: the shared entry from behind the padding byte, which then holds back the next service. -/
theorem breakEntersHandler : Obligations.BreakEntersHandler := by
  intro s
  have entry := enterHandler_spec true (s.setPc (s.pc + 1)) _ (kept_fetchOperand s)
  simp only [State.setPc_p, State.setPc_pc, State.setPc_s, State.setPc_ram, State.setPc_cpu,
    State.withCpu_ram] at entry
  obtain ⟨enters, stored, stacked⟩ := entry
  have runs : exec .brk s = .next { enterHandler true (fetchOperand s).2 with noServiceNext := true } := rfl
  rw [enters, State.withCpu_hold] at runs
  have kept : SameMem s (s.setPc (s.pc + 1)) := State.setPc_byteAt _ s
  refine ⟨rfl, runs, .before kept (stored.of_withCpu.withCpu _), ?_⟩
  rw [State.withCpu_ram]
  exact stacked

/-- The state in which `RTI` pulls `PC`: after its first pull, with the flags of the byte pulled in force
(43_control_flags.md R263). -/
def rtiFlagged (s : State) : State :=
  let s1 := (pull (dummyStackRead (dummyRead s.pc s))).2
  s1.withCpu { s1.cpu with p := Flags.ofByte (s.ram.read (256 + (s.s + 1).toNat)) }

theorem rtiFlagged_mem (s : State) : SameMem s (rtiFlagged s) :=
  ((kept_beforePull s).byteAt.trans (pull_mem _)).withCpu _

/-- `RTI`: the pull of the status, the pulls of `PC` under the flags it gives, then the registers. -/
theorem runRti_eq (s : State) :
    runRti s =
      (pull (pull (rtiFlagged s)).2).2.withCpu
        { s.cpu with
          s := s.s + 3, p := Flags.ofByte (s.ram.read (256 + (s.s + 1).toNat))
          pc := mk16 (s.ram.read (256 + (s.s + 3).toNat)) (s.ram.read (256 + (s.s + 2).toNat)) } := by
  obtain ⟨status, -⟩ := pull_of_kept (kept_beforePull s)
  rw [← State.withCpu_eq (runRti_cpu s)]
  simp only [runRti, returnFromInterrupt, status, State.withCpu_setPc, State.setP_eq _ rfl, rtiFlagged]

/-- Settles O15: three pulls store nothing, and loading the flags between them is no store. -/
theorem returnFromInterruptRestores : Obligations.ReturnFromInterruptRestores := by
  intro s
  have runs : exec .rti s = .next (runRti s) := rfl
  have kept := (rtiFlagged_mem s).trans (pull_pull_mem _)
  rw [runRti_eq] at runs
  exact ⟨rfl, runs, kept.withCpu _⟩

/-! ### Flag instructions and NOPs -/

section
variable {op : Byte} {i : Instr} {s : State}

/-- An implied NOP: the dummy read, and no register changed. -/
theorem impliedGives_nop (hop : i.opcode = op) (he : exec i s = implied id s) : ImpliedGives op i s s.cpu :=
  impliedGives id hop he fun _ => rfl

/-- An immediate NOP: its operand is discarded. -/
theorem immediateGives_nop (b : Byte) (hop : i.opcode = op) (he : exec i s = immediate opDiscard b s) :
    ImmediateGives op i s s.cpu :=
  immediateGives opDiscard b hop he rfl

end

/-- Settles O16: a flag instruction changes its flag; a NOP runs an operation that changes nothing. -/
theorem flagAndNopResults : Obligations.FlagAndNopResults := by
  intro s b lo hi
  have zp := kept_eaZp b s
  have zpx := kept_eaZpx b s
  have abs := kept_eaAbs lo hi s
  have abx := kept_eaAbx .read lo hi s
  refine ⟨impliedGives opClc rfl rfl fun _ => rfl, impliedGives opSec rfl rfl fun _ => rfl,
    impliedGives opCli rfl rfl fun _ => rfl, impliedGives opSei rfl rfl fun _ => rfl,
    impliedGives opClv rfl rfl fun _ => rfl, impliedGives opCld rfl rfl fun _ => rfl,
    impliedGives opSed rfl rfl fun _ => rfl,
    impliedGives_nop rfl rfl, impliedGives_nop rfl rfl, impliedGives_nop rfl rfl, impliedGives_nop rfl rfl,
    impliedGives_nop rfl rfl, impliedGives_nop rfl rfl, impliedGives_nop rfl rfl,
    immediateGives_nop b rfl rfl, immediateGives_nop b rfl rfl, immediateGives_nop b rfl rfl,
    immediateGives_nop b rfl rfl, immediateGives_nop b rfl rfl, ?memory⟩
  case memory =>
    refine readGives_family opDiscard ?modes rfl rfl fun _ _ => rfl
    simp only [List.map_cons, List.map_nil, List.forall_mem_cons]
    exact ⟨zp, abs, zpx, abx, zpx, abx, zp, zpx, abx, zp, zpx, abx, zpx, abx, zpx, abx, List.forall_mem_nil _⟩

end Sys2Proof.Machine
end

section
/-! PROOFS about the unofficial opcodes (`CombinedModifyResults`, `UnofficialLoadStoreImmediateResults`,
`UnstableResults`). Most are official operations put together: a combined opcode is a modification and then an operation
on `A`, and the loads are loads of two or three registers. The store-high family has a rule of its own. -/

namespace Sys2Proof.Machine

/-! ### Combined opcodes -/

/-- The memory modes of the combined opcodes. -/
theorem kept_combinedModes (b lo hi : Byte) (s : State) :
    ∀ e ∈ [eaIzx b s, eaZp b s, eaAbs lo hi s, eaIzy .rmw b s, eaZpx b s, eaAby .rmw lo hi s, eaAbx .rmw lo hi s],
      Kept s e.2 := by
  simp only [List.forall_mem_cons]
  exact ⟨kept_eaIzx b s, kept_eaZp b s, kept_eaAbs lo hi s, kept_eaIzy .rmw b s, kept_eaZpx b s,
    kept_eaAby .rmw lo hi s, kept_eaAbx .rmw lo hi s, List.forall_mem_nil _⟩

/-- `ASL` on the registers `c`. -/
theorem modAsl_withCpu (c : Cpu) (v : Byte) (u : State) :
    modAsl v (u.withCpu c) = (shiftLeft v false, u.withCpu { c with p := c.p.shiftLeft v false }) := rfl

/-- `LSR` on the registers `c`. -/
theorem modLsr_withCpu (c : Cpu) (v : Byte) (u : State) :
    modLsr v (u.withCpu c) = (shiftRight v false, u.withCpu { c with p := c.p.shiftRight v false }) := rfl

/-- `ROL` on the registers `c`. -/
theorem modRol_withCpu (c : Cpu) (v : Byte) (u : State) :
    modRol v (u.withCpu c) = (shiftLeft v c.p.c, u.withCpu { c with p := c.p.shiftLeft v c.p.c }) := rfl

/-- `ROR` on the registers `c`. -/
theorem modRor_withCpu (c : Cpu) (v : Byte) (u : State) :
    modRor v (u.withCpu c) = (shiftRight v c.p.c, u.withCpu { c with p := c.p.shiftRight v c.p.c }) := rfl

/-- `A <- A & v; setNZ(A)` on the registers `c`. -/
theorem opAnd_withCpu (c : Cpu) (v : Byte) (u : State) :
    opAnd v (u.withCpu c) = u.withCpu { c with a := c.a &&& v, p := c.p.setNZ (c.a &&& v) } := rfl

/-- `A <- A | v; setNZ(A)` on the registers `c`. -/
theorem opOra_withCpu (c : Cpu) (v : Byte) (u : State) :
    opOra v (u.withCpu c) = u.withCpu { c with a := c.a ||| v, p := c.p.setNZ (c.a ||| v) } := rfl

/-- `A <- A ^ v; setNZ(A)` on the registers `c`. -/
theorem opEor_withCpu (c : Cpu) (v : Byte) (u : State) :
    opEor v (u.withCpu c) = u.withCpu { c with a := c.a ^^^ v, p := c.p.setNZ (c.a ^^^ v) } := rfl

/-- `A <- A - v - (1 - C)`, as the sum with the complement, on the registers `c`. -/
theorem opSbc_withCpu (c : Cpu) (v : Byte) (u : State) :
    opSbc v (u.withCpu c) =
      u.withCpu { c with a := addResult c.a (v ^^^ 0xFF) c.p.c, p := c.p.addWithCarry c.a (v ^^^ 0xFF) c.p.c } := rfl

/-- The increment of `ISB` changes no register. -/
theorem modIncQuiet_withCpu (c : Cpu) (v : Byte) (u : State) : modIncQuiet v (u.withCpu c) = (v + 1, u.withCpu c) := rfl

/-- The decrement of `DCP` changes no register. -/
theorem modDecQuiet_withCpu (c : Cpu) (v : Byte) (u : State) : modDecQuiet v (u.withCpu c) = (v - 1, u.withCpu c) := rfl

/-- Settles O17: each is a modification and then an operation on `A`, which finds the flags that the modification left:
RRA adds the carry that its rotate shifted out. -/
theorem combinedModifyResults : Obligations.CombinedModifyResults := by
  intro s b lo hi left right flags add
  have left_eq (c : Bool) (v : Byte) : left c v = shiftLeft v c := (shiftLeft_eq v c).symm
  have right_eq (c : Bool) (v : Byte) : right c v = shiftRight v c := (shiftRight_eq v c).symm
  have add_eq (c : Bool) (r : Byte) :
      add c r = { s.cpu with a := addResult s.a r c, p := s.p.addWithCarry s.a r c } := by
    simp only [add, addResult, Flags.addWithCarry, carryNat_eq_toNat]
    rfl
  simp only [left_eq, right_eq, add_eq]
  have modes := kept_combinedModes b lo hi s
  refine ⟨?slo, ?rla, ?sre, ?rra, ?dcp, ?isb⟩
  case slo =>
    exact modifyGives_family modAsl opOra modes rfl rfl (modAsl_withCpu s.cpu) fun _ => opOra_withCpu _ _
  case rla =>
    exact modifyGives_family modRol opAnd modes rfl rfl (modRol_withCpu s.cpu) fun _ => opAnd_withCpu _ _
  case sre =>
    exact modifyGives_family modLsr opEor modes rfl rfl (modLsr_withCpu s.cpu) fun _ => opEor_withCpu _ _
  case rra =>
    exact modifyGives_family modRor opAdc modes rfl rfl (modRor_withCpu s.cpu) fun _ => opAdc_withCpu _ _
  case dcp =>
    exact modifyGives_family modDecQuiet opCmp modes rfl rfl (modDecQuiet_withCpu s.cpu) fun _ => opCmp_withCpu _ _
  case isb =>
    exact modifyGives_family modIncQuiet opSbc modes rfl rfl (modIncQuiet_withCpu s.cpu) fun _ => opSbc_withCpu _ _

/-! ### Loads, stores and immediate operations -/

/-- `A <- v; X <- v; setNZ(v)` on the registers `c`. -/
theorem opLax_withCpu (c : Cpu) (v : Byte) (u : State) :
    opLax v (u.withCpu c) = u.withCpu { c with a := v, x := v, p := c.p.setNZ v } := rfl

/-- `LAS` on the registers `c`. -/
theorem opLas_withCpu (c : Cpu) (v : Byte) (u : State) :
    opLas v (u.withCpu c) =
      u.withCpu { c with a := v &&& c.s, x := v &&& c.s, s := v &&& c.s, p := c.p.setNZ (v &&& c.s) } := rfl

/-- `ANC` on the registers `c`. -/
theorem opAnc_withCpu (c : Cpu) (v : Byte) (u : State) :
    opAnc v (u.withCpu c) = u.withCpu { c with a := c.a &&& v, p := c.p.anc (c.a &&& v) } := rfl

/-- Nothing is shifted in on the left. -/
theorem shiftRight_false (v : Byte) : shiftRight v false = v >>> 1 := by
  rw [shiftRight_eq]
  exact BitVec.or_zero

/-- Then bit 7 of the result, and with it N, is clear. -/
theorem Flags.shiftRight_false (v : Byte) (f : Flags) :
    f.shiftRight v false = { f with n := false, z := v >>> 1 == 0, c := v.getLsbD 0 } := by
  have top : (v >>> 1).getLsbD 7 = false := by
    rw [BitVec.getLsbD_ushiftRight]
    exact BitVec.getLsbD_of_ge v 8 (Nat.le_refl 8)
  rw [Flags.shiftRight, Machine.shiftRight_false, Flags.setNZ, top]

/-- `ALR` on the registers `c`. -/
theorem opAlr_withCpu (c : Cpu) (v : Byte) (u : State) :
    opAlr v (u.withCpu c) =
      u.withCpu { c with a := shiftRight (c.a &&& v) false, p := c.p.shiftRight (c.a &&& v) false } := rfl

/-- `ARR` on the registers `c`. -/
theorem opArr_withCpu (c : Cpu) (v : Byte) (u : State) :
    opArr v (u.withCpu c) =
      u.withCpu { c with a := arrResult (c.a &&& v) c.p.c, p := c.p.arr (arrResult (c.a &&& v) c.p.c) } := rfl

/-- `AXS` on the registers `c`. -/
theorem opAxs_withCpu (c : Cpu) (v : Byte) (u : State) :
    opAxs v (u.withCpu c) = u.withCpu { c with x := (c.a &&& c.x) - v, p := c.p.compare (c.a &&& c.x) v } := rfl

/-- Settles O18: LAX and LAS load the byte read, SAX stores what forming the address keeps, and the immediate operations
have their results and flags. -/
theorem unofficialLoadStoreImmediateResults : Obligations.UnofficialLoadStoreImmediateResults := by
  intro s b lo hi
  refine ⟨?lax, ?sax, ?las, ?ancImm0B, ?ancImm2B, ?alr, ?arr, ?axs⟩
  case lax =>
    refine readGives_family opLax ?modes rfl rfl (opLax_withCpu s.cpu)
    simp only [List.map_cons, List.map_nil, List.forall_mem_cons]
    exact ⟨kept_eaIzx b s, kept_eaZp b s, kept_eaAbs lo hi s, kept_eaIzy .read b s, kept_eaZpy b s,
      kept_eaAby .read lo hi s, List.forall_mem_nil _⟩
  case sax =>
    simp only [List.forall_mem_cons]
    exact ⟨writeGives_kept (value := valueSax) (eaIzx b) rfl rfl (kept_eaIzx b s) Kept.valueSax,
      writeGives_kept (value := valueSax) (eaZp b) rfl rfl (kept_eaZp b s) Kept.valueSax,
      writeGives_kept (value := valueSax) (eaAbs lo hi) rfl rfl (kept_eaAbs lo hi s) Kept.valueSax,
      writeGives_kept (value := valueSax) (eaZpy b) rfl rfl (kept_eaZpy b s) Kept.valueSax, List.forall_mem_nil _⟩
  case las => exact readGives (eaAby .read lo hi) opLas rfl rfl (kept_eaAby .read lo hi s) (opLas_withCpu s.cpu)
  case ancImm0B => exact immediateGives opAnc b rfl rfl (opAnc_withCpu s.cpu b s)
  case ancImm2B => exact immediateGives opAnc b rfl rfl (opAnc_withCpu s.cpu b s)
  case alr =>
    have alr := opAlr_withCpu s.cpu b s
    rw [Flags.shiftRight_false, shiftRight_false] at alr
    exact immediateGives opAlr b rfl rfl alr
  case arr =>
    have arr := opArr_withCpu s.cpu b s
    rw [arrResult, shiftRight_eq] at arr
    exact immediateGives opArr b rfl rfl arr
  case axs => exact immediateGives opAxs b rfl rfl (opAxs_withCpu s.cpu b s)

/-! ### Unstable opcodes -/

/-- Where `UNSTABLE_FATAL` is false an unstable opcode runs its own effect (44_unofficial.md R290). -/
theorem unstable_runs {op : Byte} {run : State → Result} {s : State} (h : s.params.unstableFatal = false) :
    unstable op run s = run s :=
  if_neg (Bool.eq_false_iff.mp h)

/-- `ANE` loads `A` from its open constant. -/
theorem opAne_withCpu (c : Cpu) (v : Byte) (u : State) :
    opAne v (u.withCpu c) =
      u.withCpu
        { c with a := (c.a ||| c.params.aneMagic) &&& c.x &&& v
                 p := c.p.setNZ ((c.a ||| c.params.aneMagic) &&& c.x &&& v) } := rfl

/-- `LXA` loads `A` and `X` from its open constant. -/
theorem opLxa_withCpu (c : Cpu) (v : Byte) (u : State) :
    opLxa v (u.withCpu c) =
      u.withCpu
        { c with a := (c.a ||| c.params.lxaMagic) &&& v, x := (c.a ||| c.params.lxaMagic) &&& v
                 p := c.p.setNZ ((c.a ||| c.params.lxaMagic) &&& v) } := rfl

/-- The store-high family in mode `izy` takes its base address from two bytes of page zero, as they were before. -/
theorem storeHighIzy_eq (b : Byte) (prep : State → State) (reg : State → Byte) (s : State) :
    storeHighIzy b prep reg s =
      storeHigh (s.ram.read b.toNat) (s.ram.read (b + 1).toNat) s.y prep reg (pointerIzy b s).2 := by
  simp only [storeHighIzy, pointerIzy_fst, (kept_pointerIzy b s).y]

section
variable {op : Byte} {i : Instr} {s t : State} {lo hi j source : Byte}

/-- The store-high family, indexed by `j` from the state `t` in which the base address is formed: `u` is the state after
the dummy read and the register change `prep`, and `source` is stored under its mask (44_unofficial.md R306). -/
theorem storeHighGives {u : State} {prep : State → State} {reg : State → Byte} (hop : i.opcode = op)
    (he : exec i s = storeHigh lo hi j prep reg t) (hu : prep (dummyRead (hi ++ (lo + j)) t) = u)
    (hr : reg u = source) (hm : SameMem s u) :
    WriteGives op i ((if 255 < lo.toNat + j.toNat then source &&& (hi + 1) else hi) ++ (lo + j), u) s
      (source &&& (hi + 1)) u.cpu := by
  have runs : exec i s = .next (busWrite _ _ _) := he
  simp only [mk16, hu, hr, crosses, decide_eq_true_eq] at runs
  dsimp only [WriteGives]
  rw [State.withCpu_eq (busWrite_cpu _ _ u)]
  exact ⟨hop, runs, .before hm (busWrite_mem _ _ u)⟩

/-- SHA, SHX and SHY store a value of registers that their bus cycles keep. -/
theorem storeHighGives_kept {reg : State → Byte} (hop : i.opcode = op) (he : exec i s = storeHigh lo hi j id reg t)
    (hk : Kept s t) (hr : ∀ {u}, Kept s u → reg u = reg s) :
    WriteGives op i
      ((if 255 < lo.toNat + j.toNat then reg s &&& (hi + 1) else hi) ++ (lo + j), dummyRead (hi ++ (lo + j)) t) s
      (reg s &&& (hi + 1)) s.cpu := by
  have k := hk.trans (kept_dummyRead (hi ++ (lo + j)) t)
  rw [← k.cpu]
  exact storeHighGives hop he rfl (hr k) k.byteAt

end

/-- `TAS` sets `S` before its store, in the state `u` that its bus cycles reach. -/
theorem Kept.setStackAX {s u : State} (k : Kept s u) : setStackAX u = u.withCpu { s.cpu with s := s.a &&& s.x } := by
  rw [← k.a, ← k.x, ← k.cpu]
  rfl

/-- Settles O19: each runs its own effect; ANE and LXA are loads, and the others the store-high family, where TAS alone
changes a register. -/
theorem unstableResults : Obligations.UnstableResults := by
  intro s b lo hi runs
  have own {op : Byte} {run : State → Result} : unstable op run s = run s := unstable_runs runs
  refine ⟨?ane, ?lxa, ?shaIzy, ?shaAby, ?shx, ?shy, ?tas⟩
  case ane => exact immediateGives opAne b rfl own (opAne_withCpu s.cpu b s)
  case lxa => exact immediateGives opLxa b rfl own (opLxa_withCpu s.cpu b s)
  case shaIzy =>
    exact storeHighGives_kept (reg := valueSax) rfl (own.trans (storeHighIzy_eq b id valueSax s)) (kept_pointerIzy b s)
      Kept.valueSax
  case shaAby => exact storeHighGives_kept (reg := valueSax) rfl own (.refl s) Kept.valueSax
  case shx => exact storeHighGives_kept (reg := State.x) rfl own (.refl s) Kept.x
  case shy => exact storeHighGives_kept (reg := State.y) rfl own (.refl s) Kept.y
  case tas =>
    have k := kept_dummyRead (hi ++ (lo + s.y)) s
    exact storeHighGives (reg := State.s) rfl own k.setStackAX rfl (k.byteAt.withCpu _)

end Sys2Proof.Machine
end

section
/-! PROOFS about the invariant of a safe run (`StepKeepsInv`), from the laws of its two parts. -/

namespace Sys2Proof.Machine

/-- Settles O57: the ranges hold at every point of a step, and each bus cycle ends with the NMI line polled. -/
theorem stepKeepsInv : Obligations.StepKeepsInv := by
  intro s t inv stepped
  obtain ⟨ranges, line⟩ := (runInv_iff s).mp inv
  exact (runInv_iff t).mpr
    ⟨step_closed devicesRange_closed.closed stepped ranges, step_closed lineSeen_closed stepped line⟩

end Sys2Proof.Machine
end

section
/-! PROOFS about the interrupt latches of the CPU (`InterruptLatches`). Only the capture and the poll of a bus cycle
write them; what stands between the two leaves all five as they were. -/

namespace Sys2Proof.Machine

/-! ### The latches as one value -/

/-- The two lines as the CPU sees them: the level, edge and pending latches of 60_exceptions.md R341 to R343. -/
structure Latches where
  nmiLine : Bool
  nmiRaised : Bool
  nmiPending : Bool
  irqRaised : Bool
  irqPending : Bool

/-- The latches of a state. -/
def State.latches (s : State) : Latches :=
  { nmiLine := s.nmiLine, nmiRaised := s.nmiRaised, nmiPending := s.nmiPending, irqRaised := s.irqRaised
    irqPending := s.irqPending }

theorem cycleStart_latches (s : State) : (cycleStart s).latches = s.latches := rfl

theorem countDown_latches (s : State) : (countDown s).latches = s.latches := rfl

theorem dmcFetched_latches (r : Byte × State) : (dmcFetched r).latches = r.2.latches := rfl

theorem captureInterrupts_latches (s : State) :
    (captureInterrupts s).latches =
      { s.latches with
        nmiPending := s.nmiPending || s.nmiRaised, nmiRaised := false, irqPending := s.irqRaised } := rfl

theorem tickPpus_latches (k : Nat) (s : State) : (tickPpus k s).latches = s.latches := by
  induction k generalizing s with
  | zero => rfl
  | succ k ih => exact ih (tickPpu s)

theorem ppuRegEffect_latches (r : Nat) (s : State) : (ppuRegEffect r s).latches = s.latches := by
  unfold ppuRegEffect
  split <;> rfl

theorem deviceEffect_latches (addr : Word) (s : State) : (deviceEffect addr s).latches = s.latches := by
  unfold deviceEffect
  split
  · rfl
  · split
    · exact ppuRegEffect_latches _ s
    · repeat' split
      all_goals rfl

theorem ppuRegWrite_latches (r : Nat) (v : Byte) (s : State) : (ppuRegWrite r v s).latches = s.latches := by
  unfold ppuRegWrite
  split <;> rfl

theorem deviceWrite_latches (addr : Word) (v : Byte) (s : State) : (deviceWrite addr v s).latches = s.latches := by
  unfold deviceWrite writeStrobe
  split
  · rfl
  · split
    · exact ppuRegWrite_latches _ v s
    · repeat' split
      all_goals simp only [State.latches, writeApuEnables, bumpDraw]

/-! ### One capture and one poll -/

/-- Between `s` and `t` the latches went through one capture and then one poll. -/
structure Captured (s t : State) : Prop where
  irqPending : t.irqPending = s.irqRaised
  nmiPending : t.nmiPending = (s.nmiPending || s.nmiRaised)
  nmiRaised : t.nmiRaised = (t.nmiLine && !s.nmiLine)

/-- Between `s` and `t` the latches went through one poll alone. -/
structure PolledOnly (s t : State) : Prop where
  irqPending : t.irqPending = s.irqPending
  nmiPending : t.nmiPending = s.nmiPending
  nmiRaised : t.nmiRaised = (s.nmiRaised || (t.nmiLine && !s.nmiLine))

/-- A poll that finds the latches of `s` is the first one since. -/
theorem polledOnly_poll {s w : State} (h : w.latches = s.latches) : PolledOnly s (pollInterrupts w) := by
  have line : w.nmiLine = s.nmiLine := congrArg Latches.nmiLine h
  have raised : w.nmiRaised = s.nmiRaised := congrArg Latches.nmiRaised h
  refine ⟨congrArg Latches.irqPending h, congrArg Latches.nmiPending h, ?_⟩
  rw [← line, ← raised]
  rfl

/-- So is one that finds them as a capture of the latches of `s` left them. -/
theorem captured_poll {s u w : State} (start : u.latches = s.latches)
    (middle : w.latches = (captureInterrupts u).latches) : Captured s (pollInterrupts w) := by
  obtain ⟨irq, nmi, raised⟩ := polledOnly_poll middle
  have pending : u.nmiPending = s.nmiPending := congrArg Latches.nmiPending start
  have edge : u.nmiRaised = s.nmiRaised := congrArg Latches.nmiRaised start
  have line : (captureInterrupts u).nmiLine = s.nmiLine := congrArg Latches.nmiLine start
  refine ⟨irq.trans (congrArg Latches.irqRaised start), ?_, ?_⟩
  · rw [← pending, ← edge]
    exact nmi
  · rw [← line]
    exact raised

section
variable {s u : State}

theorem captured_finishRead (addr : Word) (h : u.latches = s.latches) : Captured s (finishRead false addr u).2 :=
  captured_poll h (by rw [tickPpus_latches, deviceEffect_latches, tickPpus_latches]; rfl)

/-- The read of a taken branch leaves the capture out (43_control_flags.md R250). -/
theorem polledOnly_finishRead (addr : Word) (h : u.latches = s.latches) : PolledOnly s (finishRead true addr u).2 :=
  polledOnly_poll (by rw [tickPpus_latches, deviceEffect_latches, tickPpus_latches]; exact h)

end

theorem captured_writeCycle (addr : Word) (v : Byte) (s : State) : Captured s (writeCycle addr v s) :=
  captured_poll (u := countDown (cycleStart s)) rfl (by rw [tickPpus_latches, deviceWrite_latches, tickPpus_latches])

/-- A write that starts no OAM DMA is one cycle. -/
theorem captured_busWrite {addr : Word} (v : Byte) (s : State) (h : addr.toNat ≠ 0x4014) :
    Captured s (busWrite addr v s) := by
  rw [busWrite_of_ne addr v s h]
  exact captured_writeCycle addr v s

/-- A read that finds no DMC request has no stall before it, and so no other capture. -/
theorem serviceDmc_latches (addr : Word) {s : State} (h : s.dmcRequest = false) :
    (serviceDmc addr s).latches = s.latches := by
  unfold serviceDmc
  split
  · exact countDown_latches s
  · rw [if_neg (ne_true_of_eq_false h)]

/-- With the DMC quiet the latches come to steps 3 to 6 of a read as they were before the cycle. -/
theorem serviceDmc_cycleStart_latches (addr : Word) {s : State} (h : dmcQuiet s = true) :
    (serviceDmc addr (cycleStart s)).latches = s.latches :=
  (serviceDmc_latches addr (QuietAt.of_dmcQuiet h).cycleStart.request).trans (cycleStart_latches s)

/-! ### Every cycle ends with the poll -/

/-- The state has just been polled. -/
def EndsInPoll (t : State) : Prop := ∃ u, t = pollInterrupts u

theorem endsInPoll_read (suppress : Bool) (addr : Word) (s : State) : EndsInPoll (busReadWith suppress addr s).2 :=
  ⟨_, rfl⟩

theorem endsInPoll_oamRead (addr : Word) (s : State) : EndsInPoll (oamRead addr s).2 := ⟨_, rfl⟩

theorem endsInPoll_writeCycle (addr : Word) (v : Byte) (s : State) : EndsInPoll (writeCycle addr v s) := ⟨_, rfl⟩

/-- The transfers of OAM DMA end in a write cycle, or there are none. -/
theorem endsInPoll_oamCopy (page : Byte) (k i : Nat) {s : State} (h : EndsInPoll s) :
    EndsInPoll (oamCopy page k i s) := by
  induction k generalizing i s with
  | zero => exact h
  | succ k ih => exact ih (i + 1) (endsInPoll_writeCycle _ _ _)

theorem endsInPoll_oamDma (page : Byte) (s : State) : EndsInPoll (oamDma page s) := by
  unfold oamDma
  dsimp only
  refine endsInPoll_oamCopy page 256 0 ?_
  split
  · exact endsInPoll_oamRead _ _
  · exact endsInPoll_oamRead _ _

theorem endsInPoll_write (addr : Word) (v : Byte) (s : State) : EndsInPoll (busWrite addr v s) := by
  by_cases dma : addr.toNat = 0x4014
  · rw [busWrite_oamDma v s dma]
    exact endsInPoll_oamDma v _
  · rw [busWrite_of_ne addr v s dma]
    exact endsInPoll_writeCycle addr v s

/-- What the poll leaves: the level is the picture unit's output, and the IRQ latch the combined line under I. -/
theorem EndsInPoll.polled {t : State} (h : EndsInPoll t) :
    t.nmiLine = t.ppu.nmiOutput ∧
      t.irqRaised = ((t.apu.frameIrq || t.apu.dmcIrq || t.cart.irqLine) && !t.p.i) := by
  obtain ⟨u, rfl⟩ := h
  exact ⟨rfl, rfl⟩

/-- Settles O27: each form of the bus cycle ends in the poll, and before it come one capture or none. -/
theorem interruptLatches : Obligations.InterruptLatches := by
  intro s addr v
  refine ⟨(endsInPoll_read false addr s).polled, (endsInPoll_read true addr s).polled,
    (endsInPoll_write addr v s).polled, fun quiet => ?read, fun other => ?write, fun quiet => ?suppressed⟩
  case read =>
    obtain ⟨irq, nmi, raised⟩ := captured_finishRead addr (serviceDmc_cycleStart_latches addr quiet)
    exact ⟨irq, nmi, raised⟩
  case write =>
    obtain ⟨irq, nmi, raised⟩ := captured_busWrite v s fun same => other (BitVec.eq_of_toNat_eq same)
    exact ⟨irq, nmi, raised⟩
  case suppressed =>
    obtain ⟨irq, nmi, raised⟩ := polledOnly_finishRead addr (serviceDmc_cycleStart_latches addr quiet)
    exact ⟨irq, nmi, raised⟩

end Sys2Proof.Machine
end

section
/-! PROOFS about the entry to a handler by NMI and IRQ (`InterruptEntersHandler`) and the vector it takes
(`NmiTakesItsVector`). A pending NMI stays pending until the entry chooses its vector, whatever DMC stalls the bus
cycles before that take; and those cycles leave the cartridge's mapping as it was. -/

namespace Sys2Proof.Machine

/-- The two dummy reads of the interrupt sequence are at the `PC` that it pushes. -/
theorem interruptSequence_eq (s : State) :
    interruptSequence s = enterHandler false (dummyRead s.pc (dummyRead s.pc s)) := by
  rw [interruptSequence, (kept_dummyRead s.pc s).pc]

theorem kept_dummyReads (s : State) : Kept s (dummyRead s.pc (dummyRead s.pc s)) :=
  (kept_dummyRead _ s).trans (kept_dummyRead _ _)

/-- Settles O14: two dummy reads that keep everything, then the shared entry with B = 0. -/
theorem interruptEntersHandler : Obligations.InterruptEntersHandler := by
  intro s
  have entry := enterHandler_spec false s _ (kept_dummyReads s)
  rw [← interruptSequence_eq] at entry
  exact entry

/-! ### A pending NMI stays pending -/

/-- An NMI pending in `s` is pending in `t`. -/
def NmiStays (s t : State) : Prop := s.nmiPending = true → t.nmiPending = true

theorem NmiStays.trans {s t u : State} (h : NmiStays s t) (k : NmiStays t u) : NmiStays s u :=
  fun pending => k (h pending)

theorem NmiStays.of_latches {s t : State} (h : t.latches = s.latches) : NmiStays s t :=
  fun pending => (congrArg Latches.nmiPending h).trans pending

/-- A capture only adds. -/
theorem Captured.nmiStays {s t : State} (h : Captured s t) : NmiStays s t := fun pending => by
  rw [h.nmiPending, pending, Bool.true_or]

theorem nmiStays_stallRead (addr : Word) (s : State) : NmiStays s (stallRead addr s).2 :=
  (captured_finishRead addr (cycleStart_latches s)).nmiStays

theorem nmiStays_idleCycle (s : State) : NmiStays s (idleCycle s) :=
  (captured_poll (cycleStart_latches s) (tickPpus_latches 3 _)).nmiStays

theorem nmiStays_stallDummy (addr : Word) (s : State) : NmiStays s (stallDummy addr s) := by
  unfold stallDummy
  split
  · exact nmiStays_stallRead addr s
  · exact nmiStays_idleCycle s

theorem nmiStays_dmcStall (addr : Word) (s : State) : NmiStays s (dmcStall addr s) :=
  (nmiStays_stallDummy addr s).trans ((nmiStays_stallDummy addr _).trans ((nmiStays_stallDummy addr _).trans
    ((nmiStays_stallRead _ _).trans (.of_latches (dmcFetched_latches _)))))

theorem nmiStays_serviceDmc (addr : Word) (s : State) : NmiStays s (serviceDmc addr s) := by
  unfold serviceDmc
  repeat' split
  · exact .of_latches (countDown_latches s)
  · exact nmiStays_dmcStall addr s
  · exact .of_latches rfl

theorem nmiStays_busRead (addr : Word) (s : State) : NmiStays s (busRead addr s).2 :=
  (NmiStays.of_latches (cycleStart_latches s)).trans
    ((nmiStays_serviceDmc addr _).trans (captured_finishRead addr rfl).nmiStays)

theorem nmiStays_dummyRead (addr : Word) (s : State) : NmiStays s (dummyRead addr s) := nmiStays_busRead addr s

theorem nmiStays_fetchOperand (s : State) : NmiStays s (fetchOperand s).2 := nmiStays_busRead s.pc s

/-! ### Pushes -/

/-- The stack page lies in internal RAM. -/
theorem stackAddr_lt (s : State) : (stackAddr s).toNat < 0x2000 := by
  have := s.s.isLt
  rw [stackAddr_toNat]
  omega

/-- A push is one write cycle. -/
theorem push_eq (v : Byte) (s : State) : push v s = (writeCycle (stackAddr s) v s).setS (s.s - 1) := by
  have low := stackAddr_lt s
  have same : (writeCycle (stackAddr s) v s).s = s.s := congrArg Cpu.s (writeCycle_cpu _ v s)
  rw [push, busWrite_of_ne _ v s (by omega), same]

theorem nmiStays_push (v : Byte) (s : State) : NmiStays s (push v s) := by
  rw [push_eq]
  exact (captured_writeCycle _ v s).nmiStays

/-- A push does not reach the cartridge. -/
theorem push_cart (v : Byte) (s : State) : Cart.Same s.cart (push v s).cart := by
  have rest := (kept_writeCycle (stackAddr s) v s).cart
  rw [deviceWrite, if_pos (stackAddr_lt s)] at rest
  rw [push_eq]
  exact (kept_atWrite s).cart.trans rest

/-! ### The vector -/

/-- The state in which the shared entry chooses its vector: after its three pushes (60_exceptions.md R347). -/
def entryPushed (b : Bool) (s : State) : State := push (s.p.pushed b) (push (lo8 s.pc) (push (hi8 s.pc) s))

theorem nmiStays_entryPushed (b : Bool) (s : State) : NmiStays s (entryPushed b s) :=
  (nmiStays_push _ s).trans ((nmiStays_push _ _).trans (nmiStays_push _ _))

theorem entryPushed_cart (b : Bool) (s : State) : Cart.Same s.cart (entryPushed b s).cart :=
  (push_cart _ s).trans ((push_cart _ _).trans (push_cart _ _))

/-- The vector that the entry takes, by whether an NMI is pending after the pushes. -/
def entryVector (pending : Bool) : Word := if pending then 0xFFFA#16 else 0xFFFE#16

theorem entryVector_inCart (pending : Bool) :
    0x4020 ≤ (entryVector pending).toNat ∧ 0x4020 ≤ (entryVector pending + 1).toNat := by
  revert pending
  decide

/-- The state in which the entry reads its vector: the NMI used up, I set. -/
def entryChosen (b : Bool) (s : State) : State :=
  { entryPushed b s with nmiPending := false, p := { s.p with i := true } }

/-- `PC` after the entry is the two bytes read at its vector. -/
theorem enterHandler_pc (b : Bool) (s : State) :
    let lo := busRead (entryVector (entryPushed b s).nmiPending) (entryChosen b s)
    (enterHandler b s).pc = (busRead (entryVector (entryPushed b s).nmiPending + 1) lo.2).1 ++ lo.1 := by
  obtain ⟨enters, -⟩ := enterHandler_spec b s s (.refl s)
  rw [enters, State.withCpu_pc]
  rfl

/-- The entry loads `PC` from its vector as the cartridge maps it. -/
theorem enterHandler_pc_mapped {b pending : Bool} {s : State} {lo hi : Byte}
    (hnmi : (entryPushed b s).nmiPending = pending) (hlo : s.cart.cpuRead (entryVector pending) = some lo)
    (hhi : s.cart.cpuRead (entryVector pending + 1) = some hi) : (enterHandler b s).pc = hi ++ lo := by
  obtain ⟨inCart, inCart'⟩ := entryVector_inCart pending
  have mapped : Cart.Same s.cart (entryChosen b s).cart := entryPushed_cart b s
  have mapped' := mapped.trans (kept_busRead (entryVector pending) (entryChosen b s)).cart
  rw [enterHandler_pc, hnmi, busRead_cart _ _ lo inCart ((mapped.cpuRead _).trans hlo),
    busRead_cart _ _ hi inCart' ((mapped'.cpuRead _).trans hhi)]

/-- Where an NMI is pending before the pushes, it is so after them, and the entry takes its vector. -/
theorem enterHandler_pc_nmi {b : Bool} {s t : State} {lo hi : Byte} (stays : NmiStays s t)
    (same : Cart.Same s.cart t.cart) (pending : s.nmiPending = true) (hlo : s.cart.cpuRead 0xFFFA = some lo)
    (hhi : s.cart.cpuRead 0xFFFB = some hi) : (enterHandler b t).pc = hi ++ lo :=
  enterHandler_pc_mapped (nmiStays_entryPushed b t (stays pending)) ((same.cpuRead _).trans hlo)
    ((same.cpuRead _).trans hhi)

/-- What `BRK` does after the entry leaves `PC` alone. -/
theorem runBrk_pc (s : State) : (runBrk s).pc = (enterHandler true (fetchOperand s).2).pc := rfl

/-- Settles O26: a pending NMI is still pending when the vector is chosen, in the interrupt sequence and in BRK. -/
theorem nmiTakesItsVector : Obligations.NmiTakesItsVector := by
  intro s lo hi
  have kept := kept_dummyReads s
  have stays := (nmiStays_dummyRead s.pc s).trans (nmiStays_dummyRead s.pc _)
  rw [interruptSequence_eq]
  refine ⟨fun pending hlo hhi => ⟨?nmi, ?brk⟩, fun noNmi hlo hhi => ?irq⟩
  case nmi => exact enterHandler_pc_nmi stays kept.cart pending hlo hhi
  case brk =>
    have entered : (enterHandler true (fetchOperand s).2).pc = hi ++ lo :=
      enterHandler_pc_nmi (nmiStays_fetchOperand s) (kept_fetchOperand s).cart pending hlo hhi
    exact ⟨runBrk s, rfl, (runBrk_pc s).trans entered⟩
  case irq =>
    have pushed : (entryPushed false (dummyRead s.pc (dummyRead s.pc s))).nmiPending = false := by
      rw [entryPushed, kept.p, kept.pc]
      exact noNmi
    exact enterHandler_pc_mapped pushed ((kept.cart.cpuRead _).trans hlo) ((kept.cart.cpuRead _).trans hhi)

end Sys2Proof.Machine
end

section
/-! PROOFS about the writes to $4015 and $4017 (`ApuControlWrites`): the conditions and counters of the audio unit in
the form of the statement, then the two writes. -/

namespace Sys2Proof.Machine

/-- The condition of R547 to start a sample, as one decision. -/
theorem Dmc.starts_eq (on : Bool) (m : Dmc) : m.starts on = decide (on = true ∧ m.bytesLeft = 0) := by
  rw [Dmc.starts, Bool.decide_and, Bool.decide_eq_true]
  rfl

/-- The request of R540, its test of the count as a decision. -/
theorem Dmc.wantsByte_eq (m : Dmc) : m.wantsByte = (m.bufferEmpty && decide (m.bytesLeft ≠ 0)) := by
  change (m.bufferEmpty && !decide (m.bytesLeft = 0)) = _
  rw [← decide_not]

/-- A length counts down where it is neither halted nor out (R511). -/
theorem clockLength_eq (halt : Bool) (n : Byte) : clockLength halt n = if halt = false ∧ n ≠ 0 then n - 1 else n :=
  ite_congr (propext and_comm) (fun _ => rfl) fun _ => rfl

/-- A linear counter that is out stays at 0 (R515). -/
theorem Triangle.clockLinear_linear (t : Triangle) :
    t.clockLinear.linear = if t.linReloadFlag then t.linReload else if t.linear ≠ 0 then t.linear - 1 else 0 := by
  rw [Triangle.clockLinear]
  split
  case isTrue => rfl
  case isFalse =>
    split
    case isTrue => rfl
    case isFalse out => exact Decidable.not_not.mp out

/-- With bit 7 clear a write to $4017 clocks nothing (R549). -/
theorem Apu.writeFrameCounter_quiet {d : Byte} (h : d.getLsbD 7 = false) (now : Nat) (u : Apu) :
    u.writeFrameCounter now d =
      { u with
        mode5 := false, inhibit := d.getLsbD 6, frameIrq := u.frameIrq && !d.getLsbD 6
        fcDelay := if now % 2 = 1 then 3 else 2 } := by
  rw [Apu.writeFrameCounter, h]
  rfl

/-- With bit 7 set it clocks a quarter and a half frame at once (R549). -/
theorem Apu.writeFrameCounter_clocks {d : Byte} (h : d.getLsbD 7 = true) (now : Nat) (u : Apu) :
    u.writeFrameCounter now d =
      { u.quarter.half with
        mode5 := true, inhibit := d.getLsbD 6, frameIrq := u.frameIrq && !d.getLsbD 6
        fcDelay := if now % 2 = 1 then 3 else 2 } := by
  rw [Apu.writeFrameCounter, h]
  rfl

/-- Where the two writes go. -/
theorem deviceWrite_apuControl (d : Byte) (s : State) :
    deviceWrite 0x4015 d s = writeApuEnables d s ∧
      deviceWrite 0x4017 d s = { s with apu := s.apu.writeFrameCounter s.cycles d } :=
  ⟨rfl, rfl⟩

/-- Settles O51: the enables by their definition; the frame counter by bit 7, which decides whether its clocks run. -/
theorem apuControlWrites : Obligations.ApuControlWrites := by
  intro s d
  obtain ⟨enables, frameCounter⟩ := deviceWrite_apuControl d s
  refine ⟨?enables, ?frameCounter⟩
  case enables =>
    rw [enables, writeApuEnables, Dmc.starts_eq, Dmc.wantsByte_eq]
    rfl
  case frameCounter =>
    rw [frameCounter]
    cases h : d.getLsbD 7 with
    | false =>
      rw [Apu.writeFrameCounter_quiet h]
      simp only [Bool.not_false, Bool.true_or, Bool.and_true]
      rfl
    | true =>
      rw [Apu.writeFrameCounter_clocks h]
      simp only [Bool.not_true, Bool.false_or, true_and, Apu.quarter, Apu.half, Triangle.clockLinear_linear,
        clockLength_eq]
      rfl

end Sys2Proof.Machine
end

section
/-! PROOFS about the DMC's sample fetches in a read (`DmcStalls`). What a bus cycle does to them is a function of a
small part of the state, `Fetching`; a fetch delivers its byte there, whichever cycles it took. -/

namespace Sys2Proof.Machine

/-! ### The part of the state that sample fetches rest on -/

/-- The sample channel with its interrupt, the request and countdown latches, and the count of bus cycles. -/
structure Fetching where
  dmc : Dmc
  irq : Bool
  request : Bool
  delay : Nat
  cycles : Nat

/-- That part of a state. -/
def State.fetching (s : State) : Fetching :=
  { dmc := s.apu.dmc, irq := s.apu.dmcIrq, request := s.dmcRequest, delay := s.dmaDelay, cycles := s.cycles }

/-- Step 1 of a bus cycle there: one cycle more, one tick of the sample channel (20_memory.md R75). -/
def Fetching.tick (f : Fetching) : Fetching :=
  { f with
    dmc := f.dmc.clockTimer, request := f.request || f.dmc.clockTimer.wantsByte, cycles := f.cycles + 1 }

/-- The countdown of step 2 there (61_dma.md R386). -/
def Fetching.down (f : Fetching) : Fetching := { f with delay := f.delay - 1 }

/-- The delivery of `v` there, with `left` the count after it (63_apu.md R522). -/
def Fetching.deliver (v : Byte) (left : BitVec 12) (f : Fetching) : Fetching :=
  { f with dmc := f.dmc.deliver v left, irq := f.irq || f.dmc.deliverRaises left, request := false }

theorem dmcIrq_sequencerTick (u : Apu) : u.sequencerTick.dmcIrq = u.dmcIrq := by
  unfold Apu.sequencerTick Apu.sequencerStep
  repeat' split
  all_goals rfl

theorem dmcIrq_pulseTimers (u : Apu) : u.pulseTimers.dmcIrq = u.dmcIrq := by
  unfold Apu.pulseTimers
  split <;> rfl

theorem tick_dmcIrq (u : Apu) : u.tick.dmcIrq = u.dmcIrq := by
  simp only [Apu.tick, dmcIrq_pulseTimers, dmcIrq_sequencerTick]

theorem tick_dmc (u : Apu) : u.tick.dmc = u.dmc.clockTimer := by
  simp only [Apu.tick, dmc_pulseTimers, dmc_sequencerTick]

theorem cycleStart_fetching (s : State) : (cycleStart s).fetching = s.fetching.tick := by
  simp only [State.fetching, cycleStart, tickApu, Fetching.tick, tick_dmc, tick_dmcIrq]

theorem countDown_fetching (s : State) : (countDown s).fetching = s.fetching.down := rfl

theorem tickPpus_fetching (k : Nat) (s : State) : (tickPpus k s).fetching = s.fetching := by
  induction k generalizing s with
  | zero => rfl
  | succ k ih => exact ih (tickPpu s)

theorem ppuRegEffect_fetching (r : Nat) (s : State) : (ppuRegEffect r s).fetching = s.fetching := by
  unfold ppuRegEffect
  split <;> rfl

/-- No read of a device touches a sample fetch: that of $4015 clears the frame interrupt only. -/
theorem deviceEffect_fetching (addr : Word) (s : State) : (deviceEffect addr s).fetching = s.fetching := by
  unfold deviceEffect
  split
  · rfl
  · split
    · exact ppuRegEffect_fetching _ s
    · repeat' split
      all_goals rfl

theorem finishRead_fetching (addr : Word) (s : State) : (finishRead false addr s).2.fetching = s.fetching :=
  (tickPpus_fetching _ _).trans ((deviceEffect_fetching addr _).trans (tickPpus_fetching _ (captureInterrupts s)))

theorem stallRead_fetching (addr : Word) (s : State) : (stallRead addr s).2.fetching = s.fetching.tick :=
  (finishRead_fetching addr _).trans (cycleStart_fetching s)

theorem idleCycle_fetching (s : State) : (idleCycle s).fetching = s.fetching.tick :=
  (tickPpus_fetching 3 (captureInterrupts (cycleStart s))).trans (cycleStart_fetching s)

theorem stallDummy_fetching (addr : Word) (s : State) : (stallDummy addr s).fetching = s.fetching.tick := by
  unfold stallDummy
  split
  case isTrue => exact stallRead_fetching addr s
  case isFalse => exact idleCycle_fetching s

/-- The delivery takes one off the count where there is one (log entry 7). -/
theorem dmcFetched_fetching (r : Byte × State) :
    ∃ left, (r.2.fetching.dmc.bytesLeft ≠ 0 → left = r.2.fetching.dmc.bytesLeft - 1) ∧
      (dmcFetched r).fetching = r.2.fetching.deliver r.1 left :=
  ⟨_, fun left => if_neg left, rfl⟩

/-! ### The sample, which ticks leave alone -/

/-- The same sample at the same place, whatever the output unit has done with the bytes fetched. -/
structure Dmc.SameSample (d e : Dmc) : Prop where
  curAddr : e.curAddr = d.curAddr
  bytesLeft : e.bytesLeft = d.bytesLeft
  loop : e.loop = d.loop
  irqEnable : e.irqEnable = d.irqEnable
  sampleAddr : e.sampleAddr = d.sampleAddr
  sampleLen : e.sampleLen = d.sampleLen
  buffer : e.buffer = d.buffer

theorem Dmc.SameSample.refl (d : Dmc) : Dmc.SameSample d d := ⟨rfl, rfl, rfl, rfl, rfl, rfl, rfl⟩

theorem Dmc.sameSample_clockTimer {d e : Dmc} (h : Dmc.SameSample d e) : Dmc.SameSample d e.clockTimer := by
  obtain ⟨curAddr, bytesLeft, loop, irqEnable, sampleAddr, sampleLen, buffer⟩ := h
  unfold Dmc.clockTimer Dmc.reloadShift
  dsimp only
  repeat' split
  all_goals exact ⟨curAddr, bytesLeft, loop, irqEnable, sampleAddr, sampleLen, buffer⟩

/-- So it is after a tick. -/
theorem Dmc.SameSample.tick {d : Dmc} {f : Fetching} (h : Dmc.SameSample d f.dmc) : Dmc.SameSample d f.tick.dmc :=
  Dmc.sameSample_clockTimer h

/-- What a fetch started in state `s` leaves (63_apu.md R522); where no byte was left, the count and the address rest on
the free value of log entry 7. -/
structure Delivered (s : State) (f : Fetching) : Prop where
  request : f.request = false
  full : f.dmc.bufferEmpty = false
  byte : plainMemory s.apu.dmc.curAddr s = true → f.dmc.buffer = peek s.apu.dmc.curAddr s
  more : 2 ≤ s.apu.dmc.bytesLeft.toNat →
    f.dmc.bytesLeft = s.apu.dmc.bytesLeft - 1 ∧ f.dmc.curAddr = nextSampleAddr s.apu.dmc.curAddr
  restart : s.apu.dmc.bytesLeft = 1 → s.apu.dmc.loop = true →
    f.dmc.bytesLeft = s.apu.dmc.sampleLen ∧ f.dmc.curAddr = s.apu.dmc.sampleAddr
  finish : s.apu.dmc.bytesLeft = 1 → s.apu.dmc.loop = false →
    f.dmc.bytesLeft = 0 ∧ f.dmc.curAddr = nextSampleAddr s.apu.dmc.curAddr ∧
      (s.apu.dmc.irqEnable = true → f.irq = true)

/-- Bytes are left, and the sample goes on. -/
theorem Dmc.deliver_more {left : BitVec 12} (h : left ≠ 0) (v : Byte) (d : Dmc) :
    d.deliver v left =
      { d with buffer := v, bufferEmpty := false, curAddr := nextSampleAddr d.curAddr, bytesLeft := left } :=
  if_neg fun out => h out.1

/-- A sample that loops starts again after its last byte. -/
theorem Dmc.deliver_restart {d : Dmc} (h : d.loop = true) (v : Byte) :
    d.deliver v 0 = { d with buffer := v, bufferEmpty := false, curAddr := d.sampleAddr, bytesLeft := d.sampleLen } :=
  if_pos ⟨rfl, h⟩

/-- A sample that does not loop goes on, or ends where it is. -/
theorem Dmc.deliver_once {d : Dmc} (h : d.loop = false) (v : Byte) (left : BitVec 12) :
    d.deliver v left =
      { d with buffer := v, bufferEmpty := false, curAddr := nextSampleAddr d.curAddr, bytesLeft := left } :=
  if_neg fun again => ne_true_of_eq_false h again.2

theorem Dmc.deliver_buffer (v : Byte) (left : BitVec 12) (d : Dmc) :
    (d.deliver v left).buffer = v ∧ (d.deliver v left).bufferEmpty = false := by
  unfold Dmc.deliver
  split <;> exact ⟨rfl, rfl⟩

theorem sub_one_ne_zero_of_two_le {n : BitVec 12} (h : 2 ≤ n.toNat) : n ≠ 0 ∧ n - 1 ≠ 0 := by
  constructor <;> bv_omega

/-- The end of a fetch: its read gave the byte at the sample address, and the sample is as at its start. -/
theorem delivered_dmcFetched {s : State} {r : Byte × State} (sample : Dmc.SameSample s.apu.dmc r.2.fetching.dmc)
    (byte : plainMemory s.apu.dmc.curAddr s = true → r.1 = peek s.apu.dmc.curAddr s) :
    Delivered s (dmcFetched r).fetching := by
  obtain ⟨left, count, fetched⟩ := dmcFetched_fetching r
  rw [fetched]
  generalize r.2.fetching = f at sample count
  obtain ⟨curAddr, bytesLeft, loop, irqEnable, sampleAddr, sampleLen, -⟩ := sample
  obtain ⟨buffer, full⟩ := Dmc.deliver_buffer r.1 left f.dmc
  rw [bytesLeft] at count
  have last (one : s.apu.dmc.bytesLeft = 1) : left = 0 := by
    rw [one] at count
    exact count (by decide)
  refine ⟨rfl, full, fun plain => buffer.trans (byte plain), fun many => ?more, fun one again => ?restart,
    fun one out => ?finish⟩
  case more =>
    obtain ⟨before, after⟩ := sub_one_ne_zero_of_two_le many
    rw [← count before] at after ⊢
    rw [← curAddr]
    have delivered := Dmc.deliver_more after r.1 f.dmc
    exact ⟨congrArg Dmc.bytesLeft delivered, congrArg Dmc.curAddr delivered⟩
  case restart =>
    rw [last one, ← sampleAddr, ← sampleLen]
    have delivered := Dmc.deliver_restart (loop.trans again) r.1
    exact ⟨congrArg Dmc.bytesLeft delivered, congrArg Dmc.curAddr delivered⟩
  case finish =>
    rw [last one, ← curAddr, ← irqEnable]
    have delivered := Dmc.deliver_once (loop.trans out) r.1 0
    refine ⟨congrArg Dmc.bytesLeft delivered, congrArg Dmc.curAddr delivered, fun enabled => ?_⟩
    simp only [Fetching.deliver, Dmc.deliverRaises, loop.trans out, enabled, Bool.not_false, beq_self_eq_true,
      Bool.and_self, Bool.or_true]

/-! ### The stall of a read -/

/-- The read of a stall answers as a peek does, at plain memory. -/
theorem stallRead_plain {addr : Word} {s t : State} (kept : Kept s t) (plain : plainMemory addr s = true) :
    (stallRead addr t).1 = peek addr s :=
  deviceValue_plain addr s _ plain (kept.trans ((kept_cycleStart t).trans (kept_atRead false _)))

/-- A stall is four cycles, the last of which fetches the byte (61_dma.md R387). -/
theorem dmcStall_delivers {s t : State} (addr : Word) (kept : Kept s t)
    (sample : Dmc.SameSample s.apu.dmc t.fetching.dmc) :
    Delivered s (dmcStall addr t).fetching ∧ (dmcStall addr t).cycles = t.cycles + 4 := by
  have dummies : (stallDummy addr (stallDummy addr (stallDummy addr t))).fetching = t.fetching.tick.tick.tick := by
    simp only [stallDummy_fetching]
  have keptU : Kept s (stallDummy addr (stallDummy addr (stallDummy addr t))) :=
    kept.trans ((kept_stallDummy addr t).trans ((kept_stallDummy addr _).trans (kept_stallDummy addr _)))
  unfold dmcStall
  dsimp only
  generalize stallDummy addr (stallDummy addr (stallDummy addr t)) = u at dummies keptU ⊢
  have sampleU : Dmc.SameSample s.apu.dmc u.fetching.dmc := by
    rw [dummies]
    exact sample.tick.tick.tick
  have fetched := stallRead_fetching u.apu.dmc.curAddr u
  refine ⟨delivered_dmcFetched (by rw [fetched]; exact sampleU.tick) fun plain => ?byte, ?cycles⟩
  case byte =>
    rw [← sampleU.curAddr] at plain ⊢
    exact stallRead_plain keptU plain
  case cycles =>
    rw [dummies] at fetched
    exact congrArg Fetching.cycles fetched

/-- Steps 1 and 2 of a read decide what becomes of the sample fetch; the rest leaves it alone. -/
theorem busRead_fetching (addr : Word) (s : State) :
    (busRead addr s).2.fetching = (serviceDmc addr (cycleStart s)).fetching := finishRead_fetching addr _

/-- While a countdown is active a read counts it down (61_dma.md R386). -/
theorem serviceDmc_counting {addr : Word} {s : State} (h : 0 < s.dmaDelay) : serviceDmc addr s = countDown s :=
  if_pos h

/-- A request with no countdown active stalls the read (61_dma.md R386). -/
theorem serviceDmc_requested {addr : Word} {s : State} (idle : s.dmaDelay = 0) (request : s.dmcRequest = true) :
    serviceDmc addr s = dmcStall addr s := by
  rw [serviceDmc, if_neg (by omega), if_pos request]

/-- Settles O42: a read with a request in force is a stall and then its own cycle; one with a countdown counts down. -/
theorem dmcStalls : Obligations.DmcStalls := by
  intro s addr v
  refine ⟨fun idle request => ?stalled, fun counting => ?counting, fun other => cycles_busWrite other v s⟩
  case stalled =>
    intro t d
    have sample : Dmc.SameSample s.apu.dmc (cycleStart s).fetching.dmc := by
      rw [cycleStart_fetching]
      exact Dmc.SameSample.tick (f := s.fetching) (Dmc.SameSample.refl _)
    have stall : t.fetching = (dmcStall addr (cycleStart s)).fetching := by
      rw [busRead_fetching, serviceDmc_requested (s := cycleStart s) idle request]
    obtain ⟨delivered, cycles⟩ := dmcStall_delivers addr (kept_cycleStart s) sample
    rw [← stall] at delivered
    have kept := kept_busRead addr s
    refine ⟨(congrArg Fetching.cycles stall).trans cycles, delivered.request, kept.cpu, kept.byteAt, delivered.full,
      delivered.byte, delivered.more, delivered.restart, fun one out => ?_⟩
    obtain ⟨empty, -, irq⟩ := delivered.finish one out
    exact ⟨empty, irq⟩
  case counting =>
    have counted : (busRead addr s).2.fetching = s.fetching.tick.down := by
      rw [busRead_fetching, serviceDmc_counting (s := cycleStart s) counting, countDown_fetching, cycleStart_fetching]
    exact ⟨congrArg Fetching.cycles counted, congrArg Fetching.delay counted⟩

end Sys2Proof.Machine
end

section
/-! PROOFS about the cycles of OAM DMA and the sample fetches inside it (`OamDmaCycles`). The cycles are counted against
the bytes left of the sample, which each fetch lowers by one for two cycles; the last byte of a sample is followed from
the request to its fetch. -/

namespace Sys2Proof.Machine

/-! ### Sample fetches and plain memory in the cycles of OAM DMA -/

theorem oamRead_fetching (addr : Word) (s : State) : (oamRead addr s).2.fetching = s.fetching.tick.down :=
  (finishRead_fetching addr _).trans
    ((countDown_fetching (cycleStart s)).trans (congrArg Fetching.down (cycleStart_fetching s)))

/-- A put cycle stores to OAM through $2004, and the write that starts the DMA stores nothing. -/
theorem deviceWrite_oam (v : Byte) (s : State) :
    deviceWrite 0x2004 v s = { s with ppu := s.ppu.writeOamData v } ∧ deviceWrite 0x4014 v s = s :=
  ⟨rfl, rfl⟩

theorem writeCycle_fetching {addr : Word} {v : Byte} (h : ∀ u, (deviceWrite addr v u).fetching = u.fetching)
    (s : State) : (writeCycle addr v s).fetching = s.fetching.tick.down := by
  have reached : (atWrite s).fetching = s.fetching.tick.down := by
    rw [← cycleStart_fetching, ← countDown_fetching]
    exact tickPpus_fetching _ (captureInterrupts _)
  exact (tickPpus_fetching _ _).trans ((h _).trans reached)

theorem oamPut_fetching (v : Byte) (s : State) : (writeCycle 0x2004 v s).fetching = s.fetching.tick.down :=
  writeCycle_fetching (fun u => by rw [(deviceWrite_oam v u).1]; rfl) s

theorem oamDmaWrite_fetching (v : Byte) (s : State) : (writeCycle 0x4014 v s).fetching = s.fetching.tick.down :=
  writeCycle_fetching (fun u => by rw [(deviceWrite_oam v u).2]) s

/-- Plain memory is so still, and holds the same bytes. -/
def PlainKept (s t : State) : Prop :=
  ∀ addr, plainMemory addr s = true → plainMemory addr t = true ∧ peek addr t = peek addr s

theorem Kept.plainKept {s t : State} (h : Kept s t) : PlainKept s t := fun addr plain =>
  ⟨(plainMemory_kept addr h).trans plain, deviceValue_plain addr s t plain h⟩

theorem PlainKept.trans {s t u : State} (h : PlainKept s t) (k : PlainKept t u) : PlainKept s u := fun addr plain =>
  have ⟨plainT, peekT⟩ := h addr plain
  have ⟨plainU, peekU⟩ := k addr plainT
  ⟨plainU, peekU.trans peekT⟩

/-- The picture unit is no plain memory. -/
theorem plainKept_ppu (q : Ppu) (s : State) : PlainKept s { s with ppu := q } := by
  intro addr plain
  refine ⟨plain, ?_⟩
  by_cases inRam : addr.toNat < 0x2000
  · rw [peek_ram inRam, peek_ram inRam]
  · simp only [plainMemory, decide_eq_false inRam, Bool.false_or, Bool.and_eq_true, decide_eq_true_eq] at plain
    rw [peek, peek, deviceValue_cart addr _ plain.1, deviceValue_cart addr _ plain.1]
    rfl

theorem plainKept_oamPut (v : Byte) (s : State) : PlainKept s (writeCycle 0x2004 v s) := by
  have written := kept_writeCycle 0x2004 v s
  rw [(deviceWrite_oam v _).1] at written
  exact (kept_atWrite s).plainKept.trans ((plainKept_ppu _ _).trans written.plainKept)

theorem oamRead_plain {addr : Word} {s t : State} (kept : Kept s t) (plain : plainMemory addr s = true) :
    (oamRead addr t).1 = peek addr s :=
  deviceValue_plain addr s _ plain
    (kept.trans ((kept_cycleStart t).trans ((kept_countDown _).trans (kept_atRead false _))))

/-! ### The service before a transfer (61_dma.md R384) -/

theorem oamServiceDmc_request {s : State} (request : s.dmcRequest = true) (ended : s.dmaDelay = 0) (src : Word) :
    oamServiceDmc src s =
      dmcFetched (oamRead (oamRead src s).2.apu.dmc.curAddr (oamRead src s).2) := by
  rw [oamServiceDmc, request, ended]
  rfl

theorem oamServiceDmc_none {s : State} (h : s.dmcRequest = false ∨ s.dmaDelay ≠ 0) (src : Word) :
    oamServiceDmc src s = s := by
  rw [oamServiceDmc, if_neg]
  rcases h with h | h <;> simp [h]

/-- The sample after two cycles of OAM DMA is that before them. -/
theorem Fetching.sameSample_two_cycles (f : Fetching) : Dmc.SameSample f.dmc f.tick.down.tick.down.dmc :=
  Dmc.SameSample.tick (f := f.tick.down) (Dmc.SameSample.tick (Dmc.SameSample.refl _))

/-- A service is two cycles and the delivery of a byte. -/
theorem oamServiceDmc_fetching {s : State} (request : s.dmcRequest = true) (ended : s.dmaDelay = 0) (src : Word) :
    ∃ v left, (s.fetching.dmc.bytesLeft ≠ 0 → left = s.fetching.dmc.bytesLeft - 1) ∧
      (oamServiceDmc src s).fetching = s.fetching.tick.down.tick.down.deliver v left := by
  rw [oamServiceDmc_request request ended]
  obtain ⟨left, count, fetched⟩ := dmcFetched_fetching (oamRead (oamRead src s).2.apu.dmc.curAddr (oamRead src s).2)
  rw [oamRead_fetching, oamRead_fetching] at count fetched
  have sample := s.fetching.sameSample_two_cycles
  rw [sample.bytesLeft] at count
  exact ⟨_, left, count, fetched⟩

/-- A service delivers the byte at the sample address of `s`, where sample and plain memory are those of `s`. -/
theorem oamServiceDmc_delivers {s t : State} (request : t.dmcRequest = true) (ended : t.dmaDelay = 0)
    (sample : Dmc.SameSample s.apu.dmc t.fetching.dmc) (plainKept : PlainKept s t) (src : Word) :
    Delivered s (oamServiceDmc src t).fetching := by
  rw [oamServiceDmc_request request ended]
  have kept := kept_oamRead src t
  have first := oamRead_fetching src t
  generalize (oamRead src t).2 = u at kept first ⊢
  have sampleU : Dmc.SameSample s.apu.dmc u.fetching.dmc := by
    rw [first]
    exact sample.tick
  refine delivered_dmcFetched ?sample fun plain => ?byte
  case sample =>
    rw [oamRead_fetching]
    exact sampleU.tick
  case byte =>
    obtain ⟨plainT, peekT⟩ := plainKept _ plain
    rw [← sampleU.curAddr] at plainT peekT ⊢
    exact (oamRead_plain kept plainT).trans peekT

theorem oamTransfer_fetching (src : Word) (s : State) :
    (oamTransfer src s).fetching = (oamServiceDmc src s).fetching.tick.down.tick.down :=
  (oamPut_fetching _ _).trans (congrArg (fun f : Fetching => f.tick.down) (oamRead_fetching src _))

/-- The halt cycle of OAM DMA and its alignment cycle (61_dma.md R380). -/
def oamAlign (s : State) : State :=
  let s1 := (oamRead s.pc s).2
  if (s.cycles + 1) % 2 = 1 then (oamRead s1.pc s1).2 else s1

theorem oamDma_eq (page : Byte) (s : State) : oamDma page s = oamCopy page 256 0 (oamAlign s) := rfl

/-! ### Cycles against bytes -/

/-- Each fetch takes one off the count: the sample does not loop while bytes are left, and a request has one. -/
structure Fetching.Countable (f : Fetching) : Prop where
  once : f.dmc.bytesLeft ≠ 0 → f.dmc.loop = false
  left : f.request = true → f.dmc.bytesLeft ≠ 0

/-- From `f` to `g` there are `k` cycles, and two more for each byte by which the count fell. -/
structure Spends (k : Nat) (f g : Fetching) : Prop where
  countable : g.Countable
  fewer : g.dmc.bytesLeft.toNat ≤ f.dmc.bytesLeft.toNat
  cycles : g.cycles + 2 * g.dmc.bytesLeft.toNat = f.cycles + 2 * f.dmc.bytesLeft.toNat + k

theorem Spends.refl {f : Fetching} (h : f.Countable) : Spends 0 f f := ⟨h, Nat.le_refl _, rfl⟩

theorem Spends.trans {j k : Nat} {f g h : Fetching} (a : Spends j f g) (b : Spends k g h) : Spends (j + k) f h :=
  ⟨b.countable, Nat.le_trans b.fewer a.fewer, by rw [b.cycles, a.cycles, Nat.add_assoc]⟩

/-- The cycles between two states, as a difference of the counts. -/
theorem Spends.cycles_eq {k : Nat} {s t : State} (h : Spends k s.fetching t.fetching) :
    t.cycles = s.cycles + k + 2 * (s.apu.dmc.bytesLeft.toNat - t.apu.dmc.bytesLeft.toNat) := by
  obtain ⟨-, fewer, cycles⟩ := h
  simp only [State.fetching] at fewer cycles
  omega

theorem Spends.bytes_le {k : Nat} {s t : State} (h : Spends k s.fetching t.fetching) :
    t.apu.dmc.bytesLeft.toNat ≤ s.apu.dmc.bytesLeft.toNat := h.fewer

/-- A tick fetches nothing, and the request that it may raise has a byte. -/
theorem spends_cycle {f : Fetching} (h : f.Countable) : Spends 1 f f.tick.down := by
  obtain ⟨-, bytesLeft, loop, -⟩ := Dmc.sameSample_clockTimer (Dmc.SameSample.refl f.dmc)
  have bytes : f.tick.down.dmc.bytesLeft = f.dmc.bytesLeft := bytesLeft
  refine ⟨⟨fun left => ?once, fun request => ?left⟩, Nat.le_of_eq (congrArg BitVec.toNat bytes), ?cycles⟩
  case once => exact loop.trans (h.once (bytes ▸ left))
  case left =>
    rw [bytes]
    rcases Bool.or_eq_true _ _ |>.mp request with old | new
    · exact h.left old
    · rw [Dmc.wantsByte_eq, bytesLeft, Bool.and_eq_true, decide_eq_true_eq] at new
      exact new.2
  case cycles =>
    rw [bytes]
    exact Nat.add_right_comm _ 1 _

/-- A fetch takes two cycles and lowers the count by one, so it spends nothing. -/
theorem spends_oamServiceDmc {s : State} (h : s.fetching.Countable) (src : Word) :
    Spends 0 s.fetching (oamServiceDmc src s).fetching := by
  by_cases due : s.dmcRequest = true ∧ s.dmaDelay = 0
  · obtain ⟨request, ended⟩ := due
    obtain ⟨v, left, count, fetched⟩ := oamServiceDmc_fetching request ended src
    have bytesLeft : s.fetching.dmc.bytesLeft ≠ 0 := h.left request
    have lowered : left.toNat + 1 = s.fetching.dmc.bytesLeft.toNat := by
      have := count bytesLeft
      bv_omega
    have waited := spends_cycle h
    have cycles := (waited.trans (spends_cycle waited.countable)).cycles
    have sample := s.fetching.sameSample_two_cycles
    have once : s.fetching.tick.down.tick.down.dmc.loop = false := sample.loop.trans (h.once bytesLeft)
    rw [sample.bytesLeft] at cycles
    rw [fetched, Fetching.deliver, Dmc.deliver_once once]
    refine ⟨⟨fun _ => once, nofun⟩, ?fewer, ?cycles⟩ <;> dsimp only <;> omega
  · rw [oamServiceDmc_none ((Decidable.not_and_iff_not_or_not.mp due).imp_left eq_false_of_ne_true)]
    exact Spends.refl h

theorem spends_oamTransfer {s : State} (h : s.fetching.Countable) (src : Word) :
    Spends 2 s.fetching (oamTransfer src s).fetching := by
  have served := spends_oamServiceDmc h src
  have got := spends_cycle served.countable
  rw [oamTransfer_fetching]
  exact (served.trans got).trans (spends_cycle got.countable)

theorem spends_oamCopy {s : State} (h : s.fetching.Countable) (page : Byte) (k i : Nat) :
    Spends (2 * k) s.fetching (oamCopy page k i s).fetching := by
  induction k generalizing i s with
  | zero => exact Spends.refl h
  | succ k ih =>
    have first := spends_oamTransfer h (mk16 page (BitVec.ofNat 8 i))
    rw [Nat.mul_succ, Nat.add_comm]
    exact first.trans (ih first.countable (i + 1))

theorem spends_oamAlign {s : State} (h : s.fetching.Countable) :
    Spends (if (s.cycles + 1) % 2 = 1 then 2 else 1) s.fetching (oamAlign s).fetching := by
  have halted := spends_cycle h
  unfold oamAlign
  dsimp only
  split
  · rw [oamRead_fetching, oamRead_fetching]
    exact halted.trans (spends_cycle halted.countable)
  · rw [oamRead_fetching]
    exact halted

/-- The cycles of OAM DMA whose first cycle has number `n` (61_dma.md R380). -/
def oamDmaCount (n : Nat) : Nat := if n % 2 = 0 then 513 else 514

theorem spends_oamDma {s : State} (h : s.fetching.Countable) (page : Byte) :
    Spends (oamDmaCount (s.cycles + 1)) s.fetching (oamDma page s).fetching := by
  have aligned := spends_oamAlign h
  have count : oamDmaCount (s.cycles + 1) = (if (s.cycles + 1) % 2 = 1 then 2 else 1) + 2 * 256 := by
    unfold oamDmaCount
    split <;> split <;> omega
  rw [oamDma_eq, count]
  exact aligned.trans (spends_oamCopy aligned.countable page 256 0)

/-- So for the write to $4014, which takes its own cycle first. -/
theorem spends_oamDmaWrite {s : State} (h : s.fetching.Countable) (page : Byte) :
    Spends (1 + oamDmaCount (s.cycles + 2)) s.fetching (busWrite 0x4014 page s).fetching := by
  have written : Spends 1 s.fetching (writeCycle 0x4014 page s).fetching := by
    rw [oamDmaWrite_fetching]
    exact spends_cycle h
  have cycles : (writeCycle 0x4014 page s).cycles = s.cycles + 1 :=
    congrArg Fetching.cycles (oamDmaWrite_fetching page s)
  have dma := spends_oamDma written.countable page
  rw [cycles] at dma
  rw [busWrite_oamDma page s rfl]
  exact written.trans dma

/-! ### The last byte of a sample -/

/-- The request of state `s` is still open in `t`, with at most `n` cycles of countdown to go. -/
structure Awaits (s : State) (n : Nat) (t : State) : Prop where
  request : t.dmcRequest = true
  delay : t.dmaDelay ≤ n
  sample : Dmc.SameSample s.apu.dmc t.fetching.dmc
  plain : PlainKept s t

/-- A cycle of the DMA counts down and leaves the request open. -/
theorem Awaits.cycle {s t u : State} {n : Nat} (h : Awaits s (n + 1) t) (cycle : u.fetching = t.fetching.tick.down)
    (plain : PlainKept t u) : Awaits s n u := by
  obtain ⟨request, delay, sample, plainT⟩ := h
  have requested : u.dmcRequest = (t.dmcRequest || _) := congrArg Fetching.request cycle
  have counted : u.dmaDelay = t.dmaDelay - 1 := congrArg Fetching.delay cycle
  exact ⟨by rw [requested, request, Bool.true_or], by omega, by rw [cycle]; exact sample.tick, plainT.trans plain⟩

theorem Awaits.mono {s t : State} {m n : Nat} (h : Awaits s m t) (le : m ≤ n) : Awaits s n t :=
  ⟨h.request, Nat.le_trans h.delay le, h.sample, h.plain⟩

theorem Awaits.oamRead {s t : State} {n : Nat} (h : Awaits s (n + 1) t) (addr : Word) :
    Awaits s n (oamRead addr t).2 :=
  h.cycle (oamRead_fetching addr t) (kept_oamRead addr t).plainKept

theorem Awaits.oamPut {s t : State} {n : Nat} (h : Awaits s (n + 1) t) (v : Byte) :
    Awaits s n (writeCycle 0x2004 v t) :=
  h.cycle (oamPut_fetching v t) (plainKept_oamPut v t)

/-- The last byte of the sample of `s` has been fetched, and nothing is left to fetch. -/
structure LastFetched (s : State) (f : Fetching) : Prop where
  request : f.request = false
  bytes : f.dmc.bytesLeft = 0
  addr : f.dmc.curAddr = nextSampleAddr s.apu.dmc.curAddr
  byte : plainMemory s.apu.dmc.curAddr s = true → f.dmc.buffer = peek s.apu.dmc.curAddr s
  irq : s.apu.dmc.irqEnable = true → f.irq = true

theorem LastFetched.state {s t : State} (h : LastFetched s t.fetching) :
    t.dmcRequest = false ∧ t.apu.dmc.bytesLeft = 0 ∧ t.apu.dmc.curAddr = nextSampleAddr s.apu.dmc.curAddr ∧
      (plainMemory s.apu.dmc.curAddr s = true → t.apu.dmc.buffer = peek s.apu.dmc.curAddr s) ∧
      (s.apu.dmc.irqEnable = true → t.apu.dmcIrq = true) :=
  ⟨h.request, h.bytes, h.addr, h.byte, h.irq⟩

theorem Delivered.lastFetched {s : State} {f : Fetching} (h : Delivered s f) (one : s.apu.dmc.bytesLeft = 1)
    (out : s.apu.dmc.loop = false) : LastFetched s f := by
  obtain ⟨bytes, addr, irq⟩ := h.finish one out
  exact ⟨h.request, bytes, addr, h.byte, irq⟩

/-- With no byte left no cycle raises a request. -/
theorem LastFetched.cycle {s : State} {f : Fetching} (h : LastFetched s f) : LastFetched s f.tick.down := by
  obtain ⟨request, bytes, addr, byte, irq⟩ := h
  obtain ⟨curAddr, bytesLeft, -, -, -, -, buffer⟩ := Dmc.sameSample_clockTimer (Dmc.SameSample.refl f.dmc)
  have empty : f.dmc.clockTimer.bytesLeft = 0 := bytesLeft.trans bytes
  refine ⟨?_, empty, curAddr.trans addr, fun plain => buffer.trans (byte plain), irq⟩
  simp only [Fetching.tick, Fetching.down, request, Dmc.wantsByte, empty, bne_self_eq_false, Bool.and_false,
    Bool.or_false]

theorem LastFetched.oamTransfer {s t : State} (h : LastFetched s (oamServiceDmc src t).fetching) :
    LastFetched s (oamTransfer src t).fetching := by
  rw [oamTransfer_fetching]
  exact h.cycle.cycle

theorem LastFetched.oamCopy {s t : State} (h : LastFetched s t.fetching) (page : Byte) (k i : Nat) :
    LastFetched s (oamCopy page k i t).fetching := by
  induction k generalizing i t with
  | zero => exact h
  | succ k ih => exact ih (LastFetched.oamTransfer (by rwa [oamServiceDmc_none (.inl h.request)])) (i + 1)

section
variable {s : State} (one : s.apu.dmc.bytesLeft = 1) (out : s.apu.dmc.loop = false)
include one out

/-- Where the countdown has ended, the next transfer is preceded by the fetch. -/
theorem Awaits.transfer_now {t : State} (h : Awaits s 0 t) (src : Word) :
    LastFetched s (oamTransfer src t).fetching :=
  LastFetched.oamTransfer
    ((oamServiceDmc_delivers h.request (Nat.le_zero.mp h.delay) h.sample h.plain src).lastFetched one out)

/-- A transfer of two cycles ends a countdown of two. -/
theorem Awaits.transfer_soon {t : State} (h : Awaits s 2 t) (src : Word) :
    LastFetched s (oamTransfer src t).fetching ∨ Awaits s 0 (oamTransfer src t) := by
  by_cases ended : t.dmaDelay = 0
  · exact .inl (Awaits.transfer_now one out ⟨h.request, Nat.le_of_eq ended, h.sample, h.plain⟩ src)
  · right
    rw [Machine.oamTransfer, oamServiceDmc_none (.inr ended)]
    exact (h.oamRead src).oamPut _

/-- Two transfers see the fetch done. -/
theorem Awaits.oamCopy {t : State} (h : Awaits s 2 t) (page : Byte) (k i : Nat) :
    LastFetched s (oamCopy page (k + 2) i t).fetching := by
  rcases Awaits.transfer_soon one out h (mk16 page (BitVec.ofNat 8 i)) with done | waits
  · exact done.oamCopy page (k + 1) (i + 1)
  · exact (Awaits.transfer_now one out waits (mk16 page (BitVec.ofNat 8 (i + 1)))).oamCopy page k (i + 1 + 1)

theorem lastFetched_oamDma (request : s.dmcRequest = true) (delay : s.dmaDelay ≤ 3) (page : Byte) :
    LastFetched s (oamDma page s).fetching := by
  have waits : Awaits s 3 s := ⟨request, delay, Dmc.SameSample.refl _, (Kept.refl s).plainKept⟩
  have aligned : Awaits s 2 (oamAlign s) := by
    unfold oamAlign
    dsimp only
    split
    · exact ((waits.oamRead _).oamRead _).mono (by decide)
    · exact waits.oamRead _
  rw [oamDma_eq]
  exact Awaits.oamCopy one out aligned page 254 0

end

/-- With nothing to fetch the count stands still. -/
theorem countable_of_quiet {s : State} (h : dmcQuiet s = true) :
    s.fetching.Countable ∧ s.apu.dmc.bytesLeft.toNat = 0 := by
  obtain ⟨request, bytes, -⟩ := QuietAt.of_dmcQuiet h
  exact ⟨⟨fun left => absurd bytes left, fun requested => absurd requested (ne_true_of_eq_false request)⟩,
    congrArg BitVec.toNat bytes⟩

/-- Settles O40: cycles against bytes; the last byte of a sample; one service; and the frame of OAM DMA. -/
theorem oamDmaCycles : Obligations.OamDmaCycles := by
  intro s page src
  dsimp only
  refine ⟨fun quiet => ?quiet, fun once left => ?counted, fun request delay one out => ?last,
    fun request ended => ?service, fun undue => ?idle, (keptButOam_oamDma page s).cpu, ?frame⟩
  case quiet =>
    obtain ⟨countable, bytes⟩ := countable_of_quiet quiet
    have dma := (spends_oamDma countable page).cycles_eq
    have write := (spends_oamDmaWrite countable page).cycles_eq
    rw [bytes, Nat.zero_sub, Nat.mul_zero, Nat.add_zero] at dma write
    rw [← Nat.add_assoc] at write
    exact ⟨dma, write⟩
  case counted =>
    have countable : s.fetching.Countable := ⟨fun _ => once, left⟩
    have dma := spends_oamDma countable page
    have write := spends_oamDmaWrite countable page
    have writeCycles := write.cycles_eq
    rw [← Nat.add_assoc s.cycles] at writeCycles
    exact ⟨dma.bytes_le, write.bytes_le, dma.cycles_eq, writeCycles⟩
  case last =>
    have countable : s.fetching.Countable :=
      ⟨fun _ => out, fun _ empty => absurd (one.symm.trans empty) (by decide)⟩
    obtain ⟨served, bytes, addr, byte, irq⟩ := (lastFetched_oamDma one out request delay page).state
    have cycles := (spends_oamDma countable page).cycles_eq
    rw [bytes, show s.apu.dmc.bytesLeft = 1 from one] at cycles
    exact ⟨cycles, served, bytes, addr, byte, irq⟩
  case service =>
    obtain ⟨v, left, -, fetched⟩ := oamServiceDmc_fetching request ended src
    obtain ⟨served, full, byte, more, restart, finish⟩ :=
      oamServiceDmc_delivers request ended (Dmc.SameSample.refl _) (Kept.refl s).plainKept src
    have kept := kept_oamServiceDmc src s
    have transfer := oamTransfer_fetching src s
    rw [fetched] at transfer
    refine ⟨congrArg Fetching.cycles fetched, congrArg Fetching.cycles transfer, served, kept.cpu, kept.byteAt, full,
      byte, more, restart, fun one out => ?_⟩
    obtain ⟨empty, addr, -⟩ := finish one out
    exact ⟨empty, addr⟩
  case idle =>
    have stays := oamServiceDmc_none undue src
    have transfer := oamTransfer_fetching src s
    rw [stays] at transfer
    exact ⟨stays, congrArg Fetching.cycles transfer⟩
  case frame =>
    intro sp n outside
    refine (keptButOam_oamDma page s).mem sp n ?_
    by_cases inOam : sp = .oam
    · subst inOam
      exact .inr (Nat.le_of_not_lt fun below => outside (List.mem_map_of_mem (List.mem_range.mpr below)))
    · exact .inl inOam

end Sys2Proof.Machine
end

section
/-! PROOFS about what OAM DMA stores (`OamDmaFills`). With rendering disabled its put cycles alone change OAM and
OAMADDR, so the copy is a list of bytes stored one after the other, which is read back byte by byte. -/

namespace Sys2Proof.Machine

/-! ### OAM as its port sees it -/

/-- Primary OAM, its address register, and whether rendering is enabled, which decides what a put cycle does. -/
structure OamPort where
  oam : Memory
  addr : Byte
  rendering : Bool

/-- That part of the picture unit. -/
def Ppu.oamPort (p : Ppu) : OamPort := { oam := p.oam, addr := p.oamAddr, rendering := p.renderingEnabled }

/-- The store of one byte, with rendering disabled (62_ppu.md R434). -/
def OamPort.store (o : OamPort) (v : Byte) : OamPort :=
  { o with oam := o.oam.write o.addr.toNat (oamKeep o.addr v), addr := o.addr + 1 }

/-! ### What passes by -/

theorem Ppu.Ticked.rendering {p q : Ppu} (h : Ppu.Ticked p q) : q.renderingEnabled = p.renderingEnabled := by
  rw [Ppu.renderingEnabled, Ppu.renderingEnabled, h.mask]

theorem Ppu.oamAddr_tick {p : Ppu} (off : p.renderingEnabled = false) (n now : Nat) (c : Cart) :
    (p.tick n now c).1.oamAddr = p.oamAddr := by
  have pixel : p.pixelDot.oamAddr = p.oamAddr := by
    unfold Ppu.pixelDot
    split
    · dsimp only
      split <;> rfl
    · rfl
  have flag (q : Ppu) : q.flagDot.advance.oamAddr = q.oamAddr := by
    unfold Ppu.advance Ppu.flagDot
    repeat' split
    all_goals rfl
  rw [Ppu.tick, Ppu.renderingActive, off]
  exact (flag _).trans pixel

/-- With rendering disabled a dot leaves OAM and OAMADDR alone (62_ppu.md R468). -/
theorem tickPpu_oamPort {s : State} (off : s.ppu.renderingEnabled = false) :
    (tickPpu s).ppu.oamPort = s.ppu.oamPort := by
  obtain ⟨ticked, -⟩ := Ppu.ticked_tick s.drawCount s.cycles s.ppu s.cart
  simp only [tickPpu, Ppu.oamPort, ticked.oam, ticked.rendering, Ppu.oamAddr_tick off]

theorem tickPpus_oamPort {s : State} (off : s.ppu.renderingEnabled = false) (k : Nat) :
    (tickPpus k s).ppu.oamPort = s.ppu.oamPort := by
  induction k generalizing s with
  | zero => rfl
  | succ k ih =>
    have dot := tickPpu_oamPort off
    exact (ih ((congrArg OamPort.rendering dot).trans off)).trans dot

theorem Ppu.incrementV_oamPort (now : Nat) (p : Ppu) (c : Cart) : (p.incrementV now c).1.oamPort = p.oamPort := by
  unfold Ppu.incrementV
  split <;> rfl

theorem ppuRegEffect_oamPort (r : Nat) (s : State) : (ppuRegEffect r s).ppu.oamPort = s.ppu.oamPort := by
  unfold ppuRegEffect
  split
  · rfl
  · rfl
  · exact Ppu.incrementV_oamPort _ _ _
  · rfl

/-- No read of a device touches OAM or OAMADDR. -/
theorem deviceEffect_oamPort (addr : Word) (s : State) : (deviceEffect addr s).ppu.oamPort = s.ppu.oamPort := by
  unfold deviceEffect
  split
  · rfl
  · split
    · exact ppuRegEffect_oamPort _ s
    · repeat' split
      all_goals rfl

/-- What the write of a write cycle leaves there, the rest of the cycle leaves too. -/
theorem writeCycle_oamPort {addr : Word} {v : Byte} {s : State} {o : OamPort}
    (h : (deviceWrite addr v (atWrite s)).ppu.oamPort = o) (offO : o.rendering = false) :
    (writeCycle addr v s).ppu.oamPort = o :=
  (tickPpus_oamPort ((congrArg OamPort.rendering h).trans offO) _).trans h

section
variable {s : State} (off : s.ppu.renderingEnabled = false)
include off

theorem oamRead_oamPort (addr : Word) : (oamRead addr s).2.ppu.oamPort = s.ppu.oamPort := by
  have reached : (atRead false (countDown (cycleStart s))).ppu.oamPort = s.ppu.oamPort :=
    tickPpus_oamPort (s := captureInterrupts (countDown (cycleStart s))) off _
  have read := (deviceEffect_oamPort addr _).trans reached
  exact (tickPpus_oamPort ((congrArg OamPort.rendering read).trans off) _).trans read

theorem oamServiceDmc_oamPort (src : Word) : (oamServiceDmc src s).ppu.oamPort = s.ppu.oamPort := by
  unfold oamServiceDmc
  split
  · have first := oamRead_oamPort off src
    exact (oamRead_oamPort ((congrArg OamPort.rendering first).trans off) _).trans first
  · rfl

theorem atWrite_oamPort : (atWrite s).ppu.oamPort = s.ppu.oamPort :=
  tickPpus_oamPort (s := captureInterrupts (countDown (cycleStart s))) off _

/-- A put cycle stores its byte (62_ppu.md R434). -/
theorem oamPut_oamPort (v : Byte) : (writeCycle 0x2004 v s).ppu.oamPort = s.ppu.oamPort.store v := by
  refine writeCycle_oamPort ?_ off
  have reached := atWrite_oamPort off
  have offW : (atWrite s).ppu.renderingEnabled = false := (congrArg OamPort.rendering reached).trans off
  rw [(deviceWrite_oam v _).1, ← reached, Ppu.writeOamData, Ppu.renderingActive, offW]
  rfl

theorem oamTransfer_oamPort {src : Word} (inRam : src.toNat < 0x2000) :
    (oamTransfer src s).ppu.oamPort = s.ppu.oamPort.store (s.ram.read (src.toNat % 0x800)) := by
  have served := oamServiceDmc_oamPort off src
  have offS := (congrArg OamPort.rendering served).trans off
  have got := oamRead_oamPort offS src
  have value : (oamRead src (oamServiceDmc src s)).1 = s.ram.read (src.toNat % 0x800) :=
    (oamRead_plain (kept_oamServiceDmc src s) (by simp only [plainMemory, decide_eq_true inRam, Bool.true_or])).trans
      (peek_ram inRam s)
  rw [oamTransfer, oamPut_oamPort ((congrArg OamPort.rendering got).trans offS), got, served, value]

theorem oamAlign_oamPort : (oamAlign s).ppu.oamPort = s.ppu.oamPort := by
  have halted := oamRead_oamPort off s.pc
  unfold oamAlign
  dsimp only
  split
  · exact (oamRead_oamPort ((congrArg OamPort.rendering halted).trans off) _).trans halted
  · exact halted

end

theorem kept_oamAlign (s : State) : Kept s (oamAlign s) := by
  unfold oamAlign
  dsimp only
  split
  · exact (kept_oamRead _ s).trans (kept_oamRead _ _)
  · exact kept_oamRead _ s

/-! ### The bytes of the page, one after the other -/

/-- The stores of `vs` in their order. -/
def OamPort.storeAll : List Byte → OamPort → OamPort
  | [], o => o
  | v :: vs, o => storeAll vs (o.store v)

/-- Byte `j` of a page of internal RAM (20_memory.md R78). -/
def pageByte (page : Byte) (s : State) (j : Nat) : Byte := s.ram.read ((256 * page.toNat + j) % 0x800)

theorem pageByte_of_ram {s t : State} (h : ∀ n, t.byteAt .ram n = s.byteAt .ram n) (page : Byte) :
    pageByte page t = pageByte page s :=
  funext fun j => h ((256 * page.toNat + j) % 0x800)

theorem pageAddr_toNat (page : Byte) {i : Nat} (hi : i < 256) :
    (mk16 page (BitVec.ofNat 8 i)).toNat = 256 * page.toNat + i := by
  rw [mk16_toNat, BitVec.toNat_ofNat, Nat.mod_eq_of_lt hi]

/-- The copy of bytes `i` to `i + k - 1` of a page of internal RAM. -/
theorem oamCopy_oamPort {page : Byte} (hpage : page.toNat < 0x20) {k i : Nat} (fits : i + k ≤ 256) {s : State}
    (off : s.ppu.renderingEnabled = false) :
    (oamCopy page k i s).ppu.oamPort = s.ppu.oamPort.storeAll ((List.range' i k).map (pageByte page s)) := by
  induction k generalizing i s with
  | zero => rfl
  | succ k ih =>
    have addr := pageAddr_toNat page (i := i) (by omega)
    have stored := oamTransfer_oamPort off (src := mk16 page (BitVec.ofNat 8 i)) (by omega)
    have kept := keptButOam_transfer (mk16 page (BitVec.ofNat 8 i)) s
    have offT := (congrArg OamPort.rendering stored).trans off
    rw [oamCopy, ih (by omega) offT, pageByte_of_ram fun n => kept.mem .ram n (.inl nofun), stored, addr,
      List.range'_succ, List.map_cons]
    rfl

namespace OamPort

theorem storeAll_addr (vs : List Byte) (o : OamPort) : (o.storeAll vs).addr = o.addr + BitVec.ofNat 8 vs.length := by
  induction vs generalizing o with
  | nil => exact (BitVec.add_zero _).symm
  | cons v vs ih =>
    rw [storeAll, ih, store, List.length_cons]
    bv_omega

/-- The place `j` behind OAMADDR is the place before `j` once a byte has been stored. -/
theorem next_place (a : Byte) {j : Byte} (h : j ≠ 0) : a + j = a + 1 + (j - 1) ∧ (j - 1).toNat + 1 = j.toNat := by
  constructor <;> bv_omega

/-- Bytes that the stores do not reach, before they wrap, stay. -/
theorem storeAll_read_beyond {vs : List Byte} {j : Byte} (h : vs.length ≤ j.toNat) (o : OamPort) :
    (o.storeAll vs).oam.read (o.addr + j).toNat = o.oam.read (o.addr + j).toNat := by
  induction vs generalizing o j with
  | nil => rfl
  | cons v vs ih =>
    rw [List.length_cons] at h
    have later : j ≠ 0 := by rintro rfl; exact absurd h (Nat.not_succ_le_zero _)
    obtain ⟨place, count⟩ := next_place o.addr later
    have other : (o.addr + j).toNat ≠ o.addr.toNat := by bv_omega
    have stays := ih (j := j - 1) (by omega) (o.store v)
    rw [place] at other ⊢
    exact stays.trans (Memory.read_write_other _ _ _ _ other)

/-- Up to 256 bytes stored are read back in their order, less the bits that do not exist. -/
theorem storeAll_read {vs : List Byte} (fits : vs.length ≤ 256) {j : Byte} (h : j.toNat < vs.length) {o : OamPort}
    (hwf : o.oam.wf = true) : (o.storeAll vs).oam.read (o.addr + j).toNat = oamKeep (o.addr + j) vs[j.toNat] := by
  induction vs generalizing o j with
  | nil => exact absurd h (Nat.not_lt_zero _)
  | cons v vs ih =>
    rw [List.length_cons] at fits h
    by_cases first : j = 0
    · subst first
      have around : o.addr + 1 + 255 = o.addr := by bv_omega
      have stays := storeAll_read_beyond (vs := vs) (j := 255) (Nat.le_of_succ_le_succ fits) (o.store v)
      rw [show (o.store v).addr = o.addr + 1 from rfl, around] at stays
      rw [show o.addr + 0 = o.addr from BitVec.add_zero _, storeAll, stays]
      exact Memory.read_write_same _ _ _ hwf
    · obtain ⟨place, count⟩ := next_place o.addr first
      have later := ih (Nat.le_of_succ_le fits) (j := j - 1) (by omega) (o := o.store v) (Memory.wf_write _ _ _ hwf)
      rw [place]
      refine later.trans ?_
      congr 1
      simp only [← count, List.getElem_cons_succ]

end OamPort

/-- OAM after a write of a page of internal RAM to $4014: the cycles before the first transfer leave it alone. -/
theorem oamDmaWrite_oamPort {page : Byte} (hpage : page.toNat < 0x20) {s : State}
    (off : s.ppu.renderingEnabled = false) :
    (busWrite 0x4014 page s).ppu.oamPort = s.ppu.oamPort.storeAll ((List.range' 0 256).map (pageByte page s)) := by
  have written : (writeCycle 0x4014 page s).ppu.oamPort = s.ppu.oamPort :=
    writeCycle_oamPort (by rw [(deviceWrite_oam page _).2]; exact atWrite_oamPort off) off
  have kept := kept_writeCycle 0x4014 page s
  rw [(deviceWrite_oam page _).2] at kept
  rw [busWrite_oamDma page s rfl, oamDma_eq]
  generalize writeCycle 0x4014 page s = w at written kept ⊢
  have offW := (congrArg OamPort.rendering written).trans off
  have aligned := (oamAlign_oamPort offW).trans written
  have ram := ((kept_atWrite s).trans (kept.trans (kept_oamAlign w))).byteAt .ram
  rw [oamCopy_oamPort hpage (by decide) ((congrArg OamPort.rendering aligned).trans off), aligned,
    pageByte_of_ram ram]

/-- Settles O41: OAM is the page stored byte by byte from OAMADDR on, which comes round after 256 of them. -/
theorem oamDmaFills : Obligations.OamDmaFills := by
  intro s page i hpage bg sprites hwf
  have off : s.ppu.renderingEnabled = false := by rw [Ppu.renderingEnabled, bg, sprites]; rfl
  have port := oamDmaWrite_oamPort hpage off
  have length : ((List.range' 0 256).map (pageByte page s)).length = 256 := by
    rw [List.length_map, List.length_range']
  have within : i.toNat < ((List.range' 0 256).map (pageByte page s)).length := by
    rw [length]
    exact i.isLt
  have addr := OamPort.storeAll_addr ((List.range' 0 256).map (pageByte page s)) s.ppu.oamPort
  have read := OamPort.storeAll_read (Nat.le_of_eq length) within (o := s.ppu.oamPort) hwf
  rw [← port, length] at addr
  rw [← port, List.getElem_map, List.getElem_range', Nat.zero_add, Nat.one_mul, oamKeep_eq] at read
  dsimp only
  generalize busWrite 0x4014 page s = t at addr read ⊢
  exact ⟨addr.trans (BitVec.add_zero _), read⟩

end Sys2Proof.Machine
end

section
/-! PROOFS about one dot of the picture unit: its position and the VBlank flag (`DotAdvance`), the scroll operations and
their dots (`ScrollIncrements`), what a dot does with rendering disabled (`RenderingDisabledHolds`), and the sprite-zero
flag (`SpriteZeroHit`). The stages of a dot are said once, of the part of the unit that these statements speak of. -/

namespace Sys2Proof.Machine

/-! ### The part of the picture unit that position, flags and scroll rest on -/

/-- Position, parity, PPUMASK, the scroll registers, and the VBlank and sprite-zero flags. -/
structure Raster where
  dot : Nat
  scanline : Nat
  oddFrame : Bool
  mask : Byte
  vblank : Bool
  suppressVblank : Bool
  spr0Hit : Bool
  v : BitVec 15
  t : BitVec 15

/-- That part of the picture unit. -/
def Ppu.raster (p : Ppu) : Raster :=
  { dot := p.dot, scanline := p.scanline, oddFrame := p.oddFrame, mask := p.mask, vblank := p.vblank
    suppressVblank := p.suppressVblank, spr0Hit := p.spr0Hit, v := p.v, t := p.t }

/-! ### The last two stages of a dot -/

/-- The dot that an odd frame skips with rendering enabled (62_ppu.md R451). -/
def Raster.skipsDot (r : Raster) : Bool :=
  decide (r.scanline = 261 ∧ r.dot = 339 ∧ r.oddFrame = true ∧ (r.mask.getLsbD 3 || r.mask.getLsbD 4) = true)

/-- `Advance`, field by field. -/
theorem Ppu.advance_eq (p : Ppu) :
    p.advance =
      { p with
        dot := if p.raster.skipsDot = true ∨ p.dot = 340 then 0 else p.dot + 1
        scanline :=
          if p.raster.skipsDot then 0
          else if p.dot = 340 then (if p.scanline = 261 then 0 else p.scanline + 1)
          else p.scanline
        oddFrame := p.oddFrame != (p.raster.skipsDot || (p.dot == 340 && p.scanline == 261)) } := by
  unfold Ppu.advance
  split
  case isTrue skip =>
    have skips : p.raster.skipsDot = true := decide_eq_true skip
    simp [skips]
  case isFalse stay =>
    have stays : p.raster.skipsDot = false := decide_eq_false stay
    by_cases last : p.dot = 340
    · by_cases lastLine : p.scanline = 261
      · simp [stays, last, lastLine]
      · simp [stays, last, lastLine, beq_eq_false_iff_ne.mpr lastLine]
    · simp [stays, last, beq_eq_false_iff_ne.mpr last]

/-- The flag dots, field by field. -/
theorem Ppu.flagDot_eq (p : Ppu) :
    p.flagDot =
      { p with
        vblank :=
          if p.scanline = 241 ∧ p.dot = 1 then p.vblank || !p.suppressVblank
          else if p.scanline = 261 ∧ p.dot = 1 then false
          else p.vblank
        suppressVblank := if p.scanline = 241 ∧ p.dot = 1 then false else p.suppressVblank
        spr0Hit := if p.scanline = 261 ∧ p.dot = 1 then false else p.spr0Hit
        sprOverflow := if p.scanline = 261 ∧ p.dot = 1 then false else p.sprOverflow } := by
  unfold Ppu.flagDot
  split
  case isTrue set => simp [set]
  case isFalse noSet => split <;> rfl

/-- The advance of that part. -/
def Raster.advanced (r : Raster) : Raster :=
  { r with
    dot := if r.skipsDot = true ∨ r.dot = 340 then 0 else r.dot + 1
    scanline :=
      if r.skipsDot then 0 else if r.dot = 340 then (if r.scanline = 261 then 0 else r.scanline + 1) else r.scanline
    oddFrame := r.oddFrame != (r.skipsDot || (r.dot == 340 && r.scanline == 261)) }

theorem Ppu.raster_advance (p : Ppu) : p.advance.raster = p.raster.advanced := by
  rw [Ppu.advance_eq]
  rfl

/-- The flag dots of that part. -/
def Raster.flagged (r : Raster) : Raster :=
  { r with
    vblank :=
      if r.scanline = 241 ∧ r.dot = 1 then r.vblank || !r.suppressVblank
      else if r.scanline = 261 ∧ r.dot = 1 then false
      else r.vblank
    suppressVblank := if r.scanline = 241 ∧ r.dot = 1 then false else r.suppressVblank
    spr0Hit := if r.scanline = 261 ∧ r.dot = 1 then false else r.spr0Hit }

theorem Ppu.raster_flagDot (p : Ppu) : p.flagDot.raster = p.raster.flagged := by
  rw [Ppu.flagDot_eq]
  rfl

/-! ### The stages before them -/

/-- Whether the dot shows a pixel (62_ppu.md R450). -/
def Ppu.showsPixel (p : Ppu) : Bool := decide (p.visibleLine = true ∧ 1 ≤ p.dot ∧ p.dot ≤ 256)

theorem Ppu.raster_pixelDot (p : Ppu) :
    p.pixelDot.raster =
      { p.raster with spr0Hit := p.spr0Hit || (p.showsPixel && p.spriteZeroHits (p.dot - 1)) } := by
  unfold Ppu.pixelDot
  split
  case isTrue shown =>
    rw [Ppu.showsPixel, decide_eq_true shown, Bool.true_and]
    dsimp only
    split <;> rfl
  case isFalse hidden =>
    rw [Ppu.showsPixel, decide_eq_false hidden, Bool.false_and, Bool.or_false]
    rfl

theorem Ppu.raster_bgFetch (now ph : Nat) (p : Ppu) (c : Cart) :
    (p.bgFetch now ph c).1.raster = { p.raster with v := if ph = 7 then incX p.v else p.v } := by
  unfold Ppu.bgFetch
  split
  case h_5 other =>
    rw [if_neg other]
    rfl
  all_goals rfl

theorem Ppu.raster_renderBg (now : Nat) (p : Ppu) (c : Cart) :
    (p.renderBg now c).1.raster =
      { p.raster with
        v :=
          if ((1 ≤ p.dot ∧ p.dot ≤ 256) ∨ (321 ≤ p.dot ∧ p.dot ≤ 336)) ∧ (p.dot - 1) % 8 = 7 then incX p.v else p.v } := by
  unfold Ppu.renderBg
  split
  case isTrue fetches =>
    simp only [Ppu.raster_bgFetch, fetches, true_and]
    rfl
  case isFalse idle =>
    simp only [idle, false_and, if_false]
    rfl

theorem Ppu.raster_renderScroll (p : Ppu) :
    p.renderScroll.raster =
      { p.raster with
        v :=
          if p.dot = 256 then incY p.v
          else if p.dot = 257 then copyX p.t p.v
          else if p.scanline = 261 ∧ 280 ≤ p.dot ∧ p.dot ≤ 304 then copyY p.t p.v
          else p.v } := by
  unfold Ppu.renderScroll
  repeat' split
  all_goals rfl

theorem Ppu.raster_evalStep (p : Ppu) : p.evalStep.raster = p.raster := by
  unfold Ppu.evalStep
  dsimp only
  repeat' split
  all_goals rfl

theorem Ppu.raster_spriteEvalDot (p : Ppu) : p.spriteEvalDot.raster = p.raster := by
  unfold Ppu.spriteEvalDot
  split
  · split <;> rfl
  · split
    · rw [Ppu.raster_evalStep]
      split <;> rfl
    · rfl

theorem Ppu.raster_spriteFetchDot (n now : Nat) (p : Ppu) (c : Cart) :
    (p.spriteFetchDot n now c).1.raster = p.raster := by
  unfold Ppu.spriteFetchDot
  dsimp only
  split
  case h_5 =>
    unfold Ppu.loadSlot
    dsimp only
    split <;> rfl
  all_goals rfl

/-- `v` after a dot of a rendering line (62_ppu.md R454). -/
def Ppu.scrolled (p : Ppu) : BitVec 15 :=
  if p.dot = 256 then incY (incX p.v)
  else if p.dot = 257 then copyX p.t p.v
  else if p.dot % 8 = 0 ∧ ((1 ≤ p.dot ∧ p.dot ≤ 255) ∨ (321 ≤ p.dot ∧ p.dot ≤ 336)) then incX p.v
  else if p.scanline = 261 ∧ 280 ≤ p.dot ∧ p.dot ≤ 304 then copyY p.t p.v
  else p.v

/-- The background and scroll work of a dot: no dot both fetches a tile's last byte and copies from `t`. -/
theorem Ppu.raster_renderScroll_renderBg (now : Nat) (p : Ppu) (c : Cart) :
    (p.renderBg now c).1.renderScroll.raster = { p.raster with v := p.scrolled } := by
  have bg := Ppu.raster_renderBg now p c
  rw [Ppu.raster_renderScroll]
  generalize (p.renderBg now c).1 = q at bg ⊢
  have dot : q.dot = p.dot := congrArg Raster.dot bg
  have scanline : q.scanline = p.scanline := congrArg Raster.scanline bg
  have v := congrArg Raster.v bg
  have t : q.t = p.t := congrArg Raster.t bg
  dsimp only [Ppu.raster] at v
  rw [bg, dot, scanline, v, t, Ppu.scrolled]
  grind

theorem Ppu.raster_renderDot (n now : Nat) (p : Ppu) (c : Cart) :
    (p.renderDot n now c).1.raster = { p.raster with v := p.scrolled } := by
  rw [← Ppu.raster_renderScroll_renderBg now p c]
  unfold Ppu.renderDot
  dsimp only
  generalize (p.renderBg now c).1.renderScroll = p1
  have eval : (if p.visibleLine then p1.spriteEvalDot else p1).raster = p1.raster := by
    split
    · exact Ppu.raster_spriteEvalDot p1
    · rfl
  generalize (if p.visibleLine then p1.spriteEvalDot else p1) = p2 at eval ⊢
  split
  · rw [Ppu.raster_spriteFetchDot]
    exact eval
  · exact eval

/-- The work of a dot before its flags and its advance. -/
def Ppu.dotWork (n now : Nat) (p : Ppu) (c : Cart) : Ppu :=
  (if p.renderingActive then p.pixelDot.renderDot n now c else (p.pixelDot, c)).1

theorem Ppu.raster_dotWork (n now : Nat) (p : Ppu) (c : Cart) :
    (p.dotWork n now c).raster =
      { p.raster with
        spr0Hit := p.spr0Hit || (p.showsPixel && p.spriteZeroHits (p.dot - 1))
        v := if p.renderingActive then p.scrolled else p.v } := by
  have pixel := Ppu.raster_pixelDot p
  unfold Ppu.dotWork
  split
  case isTrue active =>
    have scrolled : p.pixelDot.scrolled = p.scrolled := by
      have dot : p.pixelDot.dot = p.dot := congrArg Raster.dot pixel
      have scanline : p.pixelDot.scanline = p.scanline := congrArg Raster.scanline pixel
      have v : p.pixelDot.v = p.v := congrArg Raster.v pixel
      have t : p.pixelDot.t = p.t := congrArg Raster.t pixel
      simp only [Ppu.scrolled, dot, scanline, v, t]
    rw [Ppu.raster_renderDot, scrolled, pixel]
  case isFalse idle => exact pixel

/-- A dot, of the part of the unit that the statements speak of: its work, the flag dots, the advance. -/
theorem Ppu.raster_tick (n now : Nat) (p : Ppu) (c : Cart) :
    (p.tick n now c).1.raster = (Raster.flagged
      { p.raster with
        spr0Hit := p.spr0Hit || (p.showsPixel && p.spriteZeroHits (p.dot - 1))
        v := if p.renderingActive then p.scrolled else p.v }).advanced := by
  rw [← Ppu.raster_dotWork n now p c, ← Ppu.raster_flagDot, ← Ppu.raster_advance]
  rfl

/-- Settles O46: the fields of the advance and of the flag dots; the position is their arithmetic. -/
theorem dotAdvance : Obligations.DotAdvance := by
  intro n now p c dotLe lineLe q ends
  have tick := Ppu.raster_tick n now p c
  have dot : q.dot = if p.raster.skipsDot = true ∨ p.dot = 340 then 0 else p.dot + 1 := congrArg Raster.dot tick
  have scanline : q.scanline =
      if p.raster.skipsDot then 0
      else if p.dot = 340 then (if p.scanline = 261 then 0 else p.scanline + 1)
      else p.scanline := congrArg Raster.scanline tick
  have parity : q.oddFrame = (p.oddFrame != (p.raster.skipsDot || (p.dot == 340 && p.scanline == 261))) :=
    congrArg Raster.oddFrame tick
  have ends_eq : ends = (p.raster.skipsDot || (p.dot == 340 && p.scanline == 261)) := by
    rw [Bool.eq_iff_iff]
    simp only [ends, Raster.skipsDot, Ppu.raster, Bool.or_eq_true, Bool.and_eq_true, decide_eq_true_eq, beq_iff_eq]
    tauto
  rw [dot, scanline, parity, ends_eq]
  refine ⟨?position, ?dotLe, ?lineLe, rfl, congrArg Raster.vblank tick, congrArg Raster.suppressVblank tick⟩
  case dotLe => split <;> omega
  case lineLe =>
    repeat' split
    all_goals omega
  case position =>
    simp only [Bool.or_eq_true, Bool.and_eq_true, beq_iff_eq]
    by_cases skips : p.raster.skipsDot = true
    · simp only [skips, true_or, if_true]
    · by_cases last : p.dot = 340
      · simp only [skips, last, Bool.false_eq_true, or_true, true_and, false_or, if_true, if_false]
        split <;> omega
      · simp only [skips, last, Bool.false_eq_true, or_self, false_and, if_false]
        omega

/-! ### The scroll registers -/

/-- The field that was replaced. -/
theorem extractLsb'_setField_same {w n : Nat} (v : BitVec w) (lo : Nat) (f : BitVec n) (h : lo + n ≤ w) :
    (setField v lo f).extractLsb' lo n = f := by
  refine BitVec.eq_of_getLsbD_eq fun i hi => ?_
  rw [BitVec.getLsbD_extractLsb', getLsbD_setField, if_pos (by omega), Nat.add_sub_cancel_left]
  simp [hi]

/-- The fields beside it. -/
theorem extractLsb'_setField_other {w n : Nat} (v : BitVec w) (lo : Nat) (f : BitVec n) {lo' n' : Nat}
    (h : lo' + n' ≤ lo ∨ lo + n ≤ lo') : (setField v lo f).extractLsb' lo' n' = v.extractLsb' lo' n' := by
  refine BitVec.eq_of_getLsbD_eq fun i hi => ?_
  rw [BitVec.getLsbD_extractLsb', getLsbD_setField, if_neg (by omega), ← BitVec.getLsbD_extractLsb']

/-- The bits beside it. -/
theorem getLsbD_setField_other {w n : Nat} (v : BitVec w) (lo : Nat) (f : BitVec n) {i : Nat}
    (h : i < lo ∨ lo + n ≤ i) : (setField v lo f).getLsbD i = v.getLsbD i := by
  rw [getLsbD_setField, if_neg (by omega)]

/-- Coarse X increment, field by field (62_ppu.md R457). -/
theorem incX_fields (v : BitVec 15) :
    let w := incX v
    let x := v.extractLsb' 0 5
    w.extractLsb' 0 5 = (if x = 31 then 0 else x + 1) ∧ w.getLsbD 10 = (v.getLsbD 10 != (x == 31)) ∧
      w.extractLsb' 5 5 = v.extractLsb' 5 5 ∧ w.extractLsb' 11 4 = v.extractLsb' 11 4 := by
  by_cases wraps : v.extractLsb' 0 5 = 31#5
  · simp (disch := omega) [incX, field, wraps, extractLsb'_setField_same, extractLsb'_setField_other,
      getLsbD_setField_other, BitVec.extractLsb'_xor, -BitVec.getLsbD_eq_getElem]
  · simp (disch := omega) [incX, field, wraps, extractLsb'_setField_same, extractLsb'_setField_other,
      getLsbD_setField_other, beq_eq_false_iff_ne.mpr wraps, -BitVec.getLsbD_eq_getElem]

/-- Fine and coarse Y increment, field by field (62_ppu.md R458). -/
theorem incY_fields (v : BitVec 15) :
    let w := incY v
    let fine := v.extractLsb' 12 3
    let y := v.extractLsb' 5 5
    w.extractLsb' 12 3 = (if fine = 7 then 0 else fine + 1) ∧
      w.extractLsb' 5 5 = (if fine ≠ 7 then y else if y = 29 ∨ y = 31 then 0 else y + 1) ∧
      w.getLsbD 11 = (v.getLsbD 11 != (fine == 7 && y == 29)) ∧ w.extractLsb' 0 5 = v.extractLsb' 0 5 ∧
      w.getLsbD 10 = v.getLsbD 10 := by
  by_cases fineWraps : v.extractLsb' 12 3 = 7#3
  · by_cases row29 : v.extractLsb' 5 5 = 29#5
    · simp (disch := omega) [incY, field, fineWraps, row29, extractLsb'_setField_same, extractLsb'_setField_other,
        getLsbD_setField_other, BitVec.extractLsb'_xor, -BitVec.getLsbD_eq_getElem]
    · by_cases row31 : v.extractLsb' 5 5 = 31#5
      · simp (disch := omega) [incY, field, fineWraps, row31, extractLsb'_setField_same, extractLsb'_setField_other,
          getLsbD_setField_other, -BitVec.getLsbD_eq_getElem]
      · simp (disch := omega) [incY, field, fineWraps, row29, row31, extractLsb'_setField_same,
          extractLsb'_setField_other, getLsbD_setField_other, beq_eq_false_iff_ne.mpr row29,
          -BitVec.getLsbD_eq_getElem]
  · simp (disch := omega) [incY, field, fineWraps, extractLsb'_setField_same, extractLsb'_setField_other,
      getLsbD_setField_other, beq_eq_false_iff_ne.mpr fineWraps, -BitVec.getLsbD_eq_getElem]

/-- The two copies as concatenations of what is kept and what comes from `t`, high bits first (62_ppu.md R459, R460). -/
theorem copies_eq (v t : BitVec 15) :
    copyX t v = v.extractLsb' 11 4 ++ t.extractLsb' 10 1 ++ v.extractLsb' 5 5 ++ t.extractLsb' 0 5 ∧
      copyY t v = t.extractLsb' 11 4 ++ v.extractLsb' 10 1 ++ t.extractLsb' 5 5 ++ v.extractLsb' 0 5 := by
  refine ⟨BitVec.eq_of_getLsbD_eq fun i hi => ?horizontal, BitVec.eq_of_getLsbD_eq fun i hi => ?vertical⟩
  all_goals
    simp only [copyX, copyY, getLsbD_setField, field, BitVec.getLsbD_append, BitVec.getLsbD_extractLsb']
    grind

/-- Settles O47: the operations field by field, then `v` after the scroll work of a dot. -/
theorem scrollIncrements : Obligations.ScrollIncrements := by
  refine ⟨fun v t => ⟨incX_fields v, incY_fields v, copies_eq v t⟩, fun n now p c => ?_⟩
  refine (congrArg Raster.v (Ppu.raster_tick n now p c)).trans ?_
  change (if p.renderingActive = true then p.scrolled else p.v) = _
  cases p.renderingActive <;> rfl

/-! ### Rendering disabled -/

/-- With rendering disabled a visible dot stores the backdrop and nothing else (62_ppu.md R466, R468). -/
theorem Ppu.pixelDot_disabled {p : Ppu} (background : p.mask.getLsbD 3 = false) (sprites : p.mask.getLsbD 4 = false) :
    p.pixelDot =
      { p with
        frame :=
          if p.scanline ≤ 239 ∧ 1 ≤ p.dot ∧ p.dot ≤ 256 then
            p.frame.write (256 * p.scanline + (p.dot - 1))
              ((p.palette[0] &&& (if p.mask.getLsbD 0 then 0x30 else 0x3F)).setWidth 8)
          else p.frame } := by
  have off : p.renderingEnabled = false := by rw [Ppu.renderingEnabled, background, sprites]; rfl
  have noHit : p.spriteZeroHits (p.dot - 1) = false := by
    rw [Ppu.spriteZeroHits, Ppu.spritePixel, sprites]
    rfl
  have backdrop : p.pixelEntry (p.dot - 1) = 0 := by
    rw [Ppu.pixelEntry, off]
    rfl
  simp only [Ppu.pixelDot, Ppu.visibleLine, decide_eq_true_eq]
  split
  case isTrue shown =>
    rw [off, if_neg Bool.false_ne_true, Ppu.outputPixel, noHit, Bool.or_false, backdrop]
    rfl
  case isFalse hidden => rfl

/-- With rendering disabled no dot is skipped (62_ppu.md R451). -/
theorem Ppu.advance_disabled {p : Ppu} (off : p.renderingEnabled = false) :
    p.advance =
      { p with
        dot := if p.dot = 340 then 0 else p.dot + 1
        scanline := if p.dot = 340 then (if p.scanline = 261 then 0 else p.scanline + 1) else p.scanline
        oddFrame := p.oddFrame != (p.dot == 340 && p.scanline == 261) } := by
  have noSkip : p.raster.skipsDot = false :=
    decide_eq_false fun ⟨_, _, _, on⟩ => Bool.false_ne_true (off.symm.trans on)
  rw [Ppu.advance_eq, noSkip]
  simp only [Bool.false_eq_true, false_or, if_false, Bool.false_or]

/-- Settles O48: the pixel stage stores the backdrop, the rendering work is left out, and the last two stages remain. -/
theorem renderingDisabledHolds : Obligations.RenderingDisabledHolds := by
  intro n now p c background sprites shown setDot clearDot grey
  have off : p.renderingEnabled = false := by rw [Ppu.renderingEnabled, background, sprites]; rfl
  have stages : p.tick n now c = (p.pixelDot.flagDot.advance, c) := by
    rw [Ppu.tick, Ppu.renderingActive, off]
    rfl
  have offEnd : p.pixelDot.flagDot.renderingEnabled = false :=
    ((Ppu.ticked_pixelDot p).trans (Ppu.ticked_flagDot _)).rendering.trans off
  rw [stages, Ppu.advance_disabled offEnd, Ppu.flagDot_eq, Ppu.pixelDot_disabled background sprites]
  simp only [shown, setDot, clearDot, decide_eq_true_eq]
  rfl

/-! ### The sprite-zero flag -/

/-- Slots are searched from their index on. -/
theorem le_of_firstOpaque {i k : Nat} {slots : List SpriteSlot} {s : SpriteSlot}
    (h : firstOpaque i slots = some (k, s)) : i ≤ k := by
  induction slots generalizing i with
  | nil => contradiction
  | cons t ts ih =>
    rw [firstOpaque] at h
    split at h
    · cases h
      exact Nat.le_refl _
    · exact Nat.le_of_succ_le (ih h)

/-- The first slot wins exactly if it is opaque. -/
theorem firstOpaque_zero_iff (slots : List SpriteSlot) :
    (∃ s, firstOpaque 0 slots = some (0, s)) ↔ ∃ t ts, slots = t :: ts ∧ t.pixel ≠ 0 := by
  cases slots with
  | nil => simp [firstOpaque]
  | cons t ts =>
    rw [firstOpaque]
    split
    case isTrue opaque_ => exact ⟨fun _ => ⟨t, ts, rfl, opaque_⟩, fun _ => ⟨t, rfl⟩⟩
    case isFalse clear =>
      have later (s : SpriteSlot) : firstOpaque 1 ts ≠ some (0, s) := fun found =>
        Nat.not_succ_le_zero 0 (le_of_firstOpaque found)
      simp [later, not_not.mp clear]

/-- A pixel of two bits is not 0 exactly if one of them is set. -/
theorem bits_ne_zero_iff (hi lo : Bool) : bit hi ++ bit lo ≠ (0 : BitVec 2) ↔ hi = true ∨ lo = true := by
  cases hi <;> cases lo <;> decide

/-- A slot's pixel is opaque at its column if a pattern bit is set (62_ppu.md R465). -/
theorem SpriteSlot.pixel_ne_zero_iff (s : SpriteSlot) :
    s.pixel ≠ 0 ↔ s.x = 0 ∧ (s.hi.getLsbD 7 = true ∨ s.lo.getLsbD 7 = true) := by
  unfold SpriteSlot.pixel
  split
  case isTrue column => simp only [bits_ne_zero_iff, column, true_and]
  case isFalse other => exact ⟨fun no => absurd rfl no, fun ⟨column, _⟩ => absurd column other⟩

/-- The slots in use start with slot 0, if any is in use. -/
theorem slots_take_iff (slots : Vector SpriteSlot 8) (k : Nat) (q : SpriteSlot → Prop) :
    (∃ t ts, slots.toList.take k = t :: ts ∧ q t) ↔ 0 < k ∧ q slots[0] := by
  obtain ⟨⟨list⟩, size⟩ := slots
  cases list with
  | nil => contradiction
  | cons t ts => cases k <;> simp

/-- Slot 0 gives the pixel at a column (62_ppu.md R465, R466). -/
theorem Ppu.spritePixel_zero_iff (p : Ppu) (px : Nat) :
    (∃ s, p.spritePixel px = some (0, s)) ↔
      p.mask.getLsbD 4 = true ∧ (8 ≤ px ∨ p.mask.getLsbD 2 = true) ∧ 0 < p.sprCount ∧ p.slots[0].x = 0 ∧
        (p.slots[0].hi.getLsbD 7 = true ∨ p.slots[0].lo.getLsbD 7 = true) := by
  have shown : (p.mask.getLsbD 4 && (decide (8 ≤ px) || p.mask.getLsbD 2)) = true ↔
      p.mask.getLsbD 4 = true ∧ (8 ≤ px ∨ p.mask.getLsbD 2 = true) := by
    simp only [Bool.and_eq_true, Bool.or_eq_true, decide_eq_true_eq]
  unfold Ppu.spritePixel
  split
  case isTrue on =>
    rw [firstOpaque_zero_iff, slots_take_iff, SpriteSlot.pixel_ne_zero_iff, ← and_assoc, ← and_assoc]
    exact ⟨fun h => ⟨shown.mp on, h⟩, fun h => h.2⟩
  case isFalse off => exact ⟨fun ⟨_, none_⟩ => by contradiction, fun ⟨on, column, _⟩ => absurd (shown.mpr ⟨on, column⟩) off⟩

/-- The background is opaque at a column (62_ppu.md R466). -/
theorem Ppu.bgPixel_ne_zero_iff (p : Ppu) (px : Nat) :
    (p.bgPixel px).1 ≠ 0 ↔
      p.mask.getLsbD 3 = true ∧ (8 ≤ px ∨ p.mask.getLsbD 1 = true) ∧
        (p.bg.bgHi.getLsbD (15 - p.fineX.toNat) = true ∨ p.bg.bgLo.getLsbD (15 - p.fineX.toNat) = true) := by
  unfold Ppu.bgPixel
  split
  case isTrue shown =>
    simp only [Bool.and_eq_true, Bool.or_eq_true, decide_eq_true_eq] at shown
    simp only [bits_ne_zero_iff, shown, true_and]
  case isFalse hidden =>
    simp only [Bool.and_eq_true, Bool.or_eq_true, decide_eq_true_eq] at hidden
    exact ⟨fun no => absurd rfl no, fun ⟨on, column, _⟩ => absurd ⟨on, column⟩ hidden⟩

/-- The pixel at a column sets the flag (62_ppu.md R467). -/
theorem Ppu.spriteZeroHits_iff (p : Ppu) (px : Nat) :
    p.spriteZeroHits px = true ↔
      (∃ s, p.spritePixel px = some (0, s)) ∧ p.slot0IsZero = true ∧ (p.bgPixel px).1 ≠ 0 ∧ 1 < px + 1 ∧
        px + 1 ≠ 256 := by
  unfold Ppu.spriteZeroHits
  split
  case h_1 none_ => simp [none_]
  case h_2 i s some_ => simp [some_, and_assoc]

/-- Settles O49: only the pixel stage can set the flag, at the columns of `spriteZeroHits`. -/
theorem spriteZeroHit : Obligations.SpriteZeroHit := by
  intro n now p c noClear b
  have flag : (p.tick n now c).1.spr0Hit =
      if p.scanline = 261 ∧ p.dot = 1 then false
      else p.spr0Hit || (p.showsPixel && p.spriteZeroHits (p.dot - 1)) :=
    congrArg Raster.spr0Hit (Ppu.raster_tick n now p c)
  rw [flag, if_neg noClear]
  simp only [Bool.or_eq_true, Bool.and_eq_true, Ppu.spriteZeroHits_iff, Ppu.spritePixel_zero_iff,
    Ppu.bgPixel_ne_zero_iff, Ppu.showsPixel, Ppu.visibleLine, decide_eq_true_eq]
  refine or_congr_right ?_
  constructor
  · rintro ⟨⟨line, first, last⟩, ⟨spritesOn, spriteColumn, used, x, pattern⟩, zero, ⟨bgOn, bgColumn, bits⟩, _, _⟩
    exact ⟨line, by omega, by omega, bgOn, spritesOn,
      fun left => ⟨bgColumn.resolve_left (by omega), spriteColumn.resolve_left (by omega)⟩, zero, used, x, pattern, bits⟩
  · rintro ⟨line, first, last, bgOn, spritesOn, left, zero, used, x, pattern, bits⟩
    have column {m : Prop} (h : p.dot ≤ 8 → m) : 8 ≤ p.dot - 1 ∨ m := by
      by_cases inner : p.dot ≤ 8
      · exact .inr (h inner)
      · exact .inl (by omega)
    exact ⟨⟨line, by omega, by omega⟩, ⟨spritesOn, column fun h => (left h).2, used, x, pattern⟩, zero,
      ⟨bgOn, column fun h => (left h).1, bits⟩, by omega, by omega⟩

end Sys2Proof.Machine
end

section
/-! PROOFS about the reads of $2002, $2004 and $4015 (`StatusReads`): which bits of the value come from the unit and
which are drawn. -/

namespace Sys2Proof.Machine

/-- A bit of a value read: known where the mask has a one, drawn elsewhere (20_memory.md R86). -/
theorem getLsbD_overlay (mask known drawn : Byte) (i : Nat) :
    (overlay mask known drawn).getLsbD i = if mask.getLsbD i then known.getLsbD i else drawn.getLsbD i := by
  rw [overlay, BitVec.getLsbD_or, BitVec.getLsbD_and, BitVec.getLsbD_and, BitVec.getLsbD_not]
  by_cases inside : i < 8
  · cases mask.getLsbD i <;> simp [inside]
  · simp [BitVec.getLsbD_of_ge _ _ (Nat.le_of_not_lt inside)]

/-- The bits of a $2002 read (62_ppu.md R430). -/
theorem overlay_ppuStatus (vblank hit overflow : Bool) (d : Byte) :
    let x := overlay 0xE0#8 (bit vblank ++ bit hit ++ bit overflow ++ 0#5) d
    x.getLsbD 7 = vblank ∧ x.getLsbD 6 = hit ∧ x.getLsbD 5 = overflow ∧ x.extractLsb' 0 5 = d.extractLsb' 0 5 := by
  refine ⟨?_, ?_, ?_, BitVec.eq_of_getLsbD_eq fun i hi => ?drawn⟩
  case drawn =>
    rw [BitVec.getLsbD_extractLsb', BitVec.getLsbD_extractLsb', Nat.zero_add, getLsbD_overlay, if_neg]
    match i, hi with
    | 0, _ | 1, _ | 2, _ | 3, _ | 4, _ => decide
  all_goals
    rw [getLsbD_overlay, if_pos (by decide)]
    simp only [BitVec.getLsbD_append, bit, BitVec.getLsbD_ofBool]
    rfl

/-- The bits of a $4015 read (63_apu.md R548). -/
theorem overlay_apuStatus (b7 b6 b4 b3 b2 b1 b0 : Bool) (d : Byte) :
    let x := overlay 0xDF#8 (bit b7 ++ bit b6 ++ bit false ++ bit b4 ++ bit b3 ++ bit b2 ++ bit b1 ++ bit b0) d
    x.getLsbD 7 = b7 ∧ x.getLsbD 6 = b6 ∧ x.getLsbD 5 = d.getLsbD 5 ∧ x.getLsbD 4 = b4 ∧ x.getLsbD 3 = b3 ∧
      x.getLsbD 2 = b2 ∧ x.getLsbD 1 = b1 ∧ x.getLsbD 0 = b0 := by
  refine ⟨?_, ?_, ?drawn, ?_, ?_, ?_, ?_, ?_⟩
  case drawn => exact (getLsbD_overlay ..).trans (if_neg (by decide))
  all_goals
    rw [getLsbD_overlay, if_pos (by decide)]
    simp only [BitVec.getLsbD_append, bit, BitVec.getLsbD_ofBool]
    rfl

/-- The race of R430 as a decision. -/
theorem Ppu.vblankRace_eq (p : Ppu) : p.vblankRace = decide (p.scanline = 241 ∧ p.dot = 1) := by
  rw [Bool.decide_and]
  rfl

/-- Settles O45: the value and the effect of each register's read, the values bit by bit. -/
theorem statusReads : Obligations.StatusReads := by
  intro s addr draw r race
  refine ⟨fun above below reg => ?status, fun above below reg => ?oamData, fun at_ => ?apuStatus⟩
  case status =>
    obtain ⟨value, effect, -⟩ := device_ppuReg ⟨above, below⟩ 0 s
    have race_eq : s.ppu.vblankRace = race := Ppu.vblankRace_eq s.ppu
    obtain ⟨b7, b6, b5, drawnBits⟩ := overlay_ppuStatus (s.ppu.vblank && !race) s.ppu.spr0Hit s.ppu.sprOverflow draw
    have r_eq : r = overlay 0xE0#8 (bit (s.ppu.vblank && !race) ++ bit s.ppu.spr0Hit ++ bit s.ppu.sprOverflow ++ 0#5)
        draw := by
      rw [← race_eq]
      exact value.trans (congrArg (ppuRegValue · s) reg)
    rw [r_eq, effect, reg]
    refine ⟨b7, b6, b5, drawnBits, ?_⟩
    rw [← race_eq]
    rfl
  case oamData =>
    obtain ⟨value, effect, -⟩ := device_ppuReg ⟨above, below⟩ 0 s
    refine ⟨value.trans (congrArg (ppuRegValue · s) reg), ?_⟩
    rw [effect, reg]
    rfl
  case apuStatus =>
    subst at_
    obtain ⟨b7, b6, b5, b4, b3, b2, b1, b0⟩ := overlay_apuStatus s.apu.dmcIrq s.apu.frameIrq (s.apu.dmc.bytesLeft != 0)
      (s.apu.noise.length != 0) (s.apu.tri.length != 0) (s.apu.p2.length != 0) (s.apu.p1.length != 0) draw
    exact ⟨b7, b6, b5, b4, b3, b2, b1, b0, rfl⟩

end Sys2Proof.Machine
end

section
/-! PROOFS about the writes to $4000 to $4013 (`ApuChannelWrites`): the fields they replace in the form of the statement,
then one write for each register. -/

namespace Sys2Proof.Machine

/-- A period with its low byte or its high three bits replaced (63_apu.md R543, R544). -/
theorem setField_period (period : BitVec 11) (d : Byte) :
    setField period 0 d = period.extractLsb' 8 3 ++ d ∧
      setField period 8 (field d 0 3) = d.extractLsb' 0 3 ++ period.extractLsb' 0 8 := by
  refine ⟨BitVec.eq_of_getLsbD_eq fun i hi => ?low, BitVec.eq_of_getLsbD_eq fun i hi => ?high⟩
  all_goals
    simp only [getLsbD_setField, field, BitVec.getLsbD_append, BitVec.getLsbD_extractLsb']
    grind

/-- The length loaded is the table's entry at bits 7:3 (63_apu.md R509). -/
theorem loadLength_eq (enabled : Bool) (d length : Byte) :
    loadLength enabled d length = if enabled then lengthTable.getD (d.toNat / 8) 0 else length := by
  have index : (field d 3 5).toNat = d.toNat / 8 := by
    rw [toNat_field]
    have := d.isLt
    omega
  rw [loadLength, lengthOf, index]

/-- The sample start of $4012 (63_apu.md R546). -/
theorem Dmc.writeAddress_eq (d : Byte) (m : Dmc) :
    m.writeAddress d = { m with sampleAddr := BitVec.ofNat 16 (0xC000 + 64 * d.toNat) } := by
  have start : 0xC000#16 + (zext16 d <<< 6) = BitVec.ofNat 16 (0xC000 + 64 * d.toNat) := by
    rw [zext16]
    bv_omega
  rw [Dmc.writeAddress, start]

/-- The sample length of $4013 (63_apu.md R546). -/
theorem Dmc.writeLength_eq (d : Byte) (m : Dmc) :
    m.writeLength d = { m with sampleLen := BitVec.ofNat 12 (16 * d.toNat + 1) } := by
  have length : (d.setWidth 12 <<< 4) + 1 = BitVec.ofNat 12 (16 * d.toNat + 1) := by bv_omega
  rw [Dmc.writeLength, length]

/-- The timer registers of a pulse channel (63_apu.md R543). -/
theorem Pulse.writeTimer_eq (d : Byte) (p : Pulse) :
    p.writeTimerLow d = { p with period := p.period.extractLsb' 8 3 ++ d } ∧
      p.writeTimerHigh d =
        { p with
          period := d.extractLsb' 0 3 ++ p.period.extractLsb' 0 8
          length := if p.enabled then lengthTable.getD (d.toNat / 8) 0 else p.length
          seq := 0, env := { p.env with start := true } } := by
  obtain ⟨low, high⟩ := setField_period p.period d
  rw [Pulse.writeTimerLow, Pulse.writeTimerHigh, low, high, loadLength_eq]
  exact ⟨rfl, rfl⟩

/-- The timer registers of the triangle (63_apu.md R544). -/
theorem Triangle.writeTimer_eq (d : Byte) (t : Triangle) :
    t.writeTimerLow d = { t with period := t.period.extractLsb' 8 3 ++ d } ∧
      t.writeTimerHigh d =
        { t with
          period := d.extractLsb' 0 3 ++ t.period.extractLsb' 0 8
          length := if t.enabled then lengthTable.getD (d.toNat / 8) 0 else t.length
          linReloadFlag := true } := by
  obtain ⟨low, high⟩ := setField_period t.period d
  rw [Triangle.writeTimerLow, Triangle.writeTimerHigh, low, high, loadLength_eq]
  exact ⟨rfl, rfl⟩

/-- The length register of the noise channel (63_apu.md R545). -/
theorem Noise.writeLength_eq (d : Byte) (n : Noise) :
    n.writeLength d =
      { n with
        length := if n.enabled then lengthTable.getD (d.toNat / 8) 0 else n.length
        env := { n.env with start := true } } := by
  rw [Noise.writeLength, loadLength_eq]

/-- A write to $4000 to $4013 is one of the channel register at that offset. -/
theorem deviceWrite_channel (r : Nat) (h : r < 0x14) (d : Byte) (s : State) :
    deviceWrite (BitVec.ofNat 16 (0x4000 + r)) d s = { s with apu := s.apu.writeChannel r d } := by
  have offset : (BitVec.ofNat 16 (0x4000 + r)).toNat = 0x4000 + r := by
    rw [BitVec.toNat_ofNat]
    omega
  rw [deviceWrite, offset, if_neg (by omega), if_neg (by omega), if_pos (by omega), Nat.add_sub_cancel_left]

/-- Settles O60: each register is its channel's own operation, which sets the fields that the statement names. -/
theorem apuChannelWrites : Obligations.ApuChannelWrites := by
  intro s d u p1 p2 tri noise dmc put env started low high table loaded control sweep restart
  have write (r : Nat) (h : r < 0x14) {q : Apu} (channel : u.writeChannel r d = q) :
      deviceWrite (BitVec.ofNat 16 (0x4000 + r)) d s = put q := by rw [deviceWrite_channel r h, channel]
  have onP1 {q q' : Pulse} (h : q = q') : { u with p1 := q } = { u with p1 := q' } := h ▸ rfl
  have onP2 {q q' : Pulse} (h : q = q') : { u with p2 := q } = { u with p2 := q' } := h ▸ rfl
  have onTri {q q' : Triangle} (h : q = q') : { u with tri := q } = { u with tri := q' } := h ▸ rfl
  have onNoise {q q' : Noise} (h : q = q') : { u with noise := q } = { u with noise := q' } := h ▸ rfl
  have onDmc {q q' : Dmc} (h : q = q') : { u with dmc := q } = { u with dmc := q' } := h ▸ rfl
  obtain ⟨low1, high1⟩ := Pulse.writeTimer_eq d p1
  obtain ⟨low2, high2⟩ := Pulse.writeTimer_eq d p2
  obtain ⟨lowTri, highTri⟩ := Triangle.writeTimer_eq d tri
  exact ⟨write 0x00 (by decide) rfl, write 0x01 (by decide) rfl, write 0x02 (by decide) (onP1 low1),
    write 0x03 (by decide) (onP1 high1), write 0x04 (by decide) rfl, write 0x05 (by decide) rfl,
    write 0x06 (by decide) (onP2 low2), write 0x07 (by decide) (onP2 high2), write 0x08 (by decide) rfl,
    write 0x09 (by decide) rfl, write 0x0A (by decide) (onTri lowTri), write 0x0B (by decide) (onTri highTri),
    write 0x0C (by decide) rfl, write 0x0D (by decide) rfl, write 0x0E (by decide) rfl,
    write 0x0F (by decide) (onNoise (Noise.writeLength_eq d noise)), write 0x10 (by decide) rfl,
    write 0x11 (by decide) rfl, write 0x12 (by decide) (onDmc (Dmc.writeAddress_eq d dmc)),
    write 0x13 (by decide) (onDmc (Dmc.writeLength_eq d dmc))⟩

end Sys2Proof.Machine
end

section
/-! PROOFS about the sweep unit, the silent pulse channels and the range of the mixer (`AudioOutputs`). -/

namespace Sys2Proof.Machine

/-! ### The sweep unit -/

/-- The target period in plain arithmetic (63_apu.md R512). -/
theorem Pulse.target_eq (first : Bool) (p : Pulse) :
    p.target first =
      let delta := p.period.toNat / 2 ^ p.swShift.toNat
      if p.swNegate then (p.period.toNat : Int) - delta - (if first then 1 else 0) else p.period.toNat + delta := by
  rw [Pulse.target, BitVec.toNat_ushiftRight, Nat.shiftRight_eq_div_pow]

theorem Pulse.muted_eq (first : Bool) (p : Pulse) :
    p.muted first = decide (p.period.toNat < 8 ∨ 0x7FF < p.target first) := by
  rw [Pulse.muted, Bool.decide_or]

/-- A channel that is not muted has a target that fits the period register, wherever the shift is not 0. -/
theorem Pulse.target_fits {first : Bool} {p : Pulse} (shift : p.swShift ≠ 0) (audible : p.muted first = false) :
    0 ≤ p.target first ∧ p.target first < 2 ^ 11 := by
  rw [Pulse.muted_eq, decide_eq_false_iff_not, not_or, Nat.not_lt, Int.not_lt] at audible
  obtain ⟨period, target⟩ := audible
  refine ⟨?_, by omega⟩
  have half : p.period.toNat / 2 ^ p.swShift.toNat ≤ p.period.toNat / 2 := by
    have pos : 1 ≤ p.swShift.toNat := Nat.one_le_iff_ne_zero.mpr fun zero => shift (BitVec.eq_of_toNat_eq zero)
    exact Nat.div_le_div_left (Nat.pow_le_pow_right (n := 2) (i := 1) Nat.zero_lt_two pos) Nat.zero_lt_two
  rw [Pulse.target_eq]
  dsimp only
  generalize p.period.toNat / 2 ^ p.swShift.toNat = delta at half ⊢
  repeat' split
  all_goals omega

/-- The period after a half frame: the target, where the sweep applies (63_apu.md R512). -/
theorem Pulse.sweptPeriod_eq (first : Bool) (p : Pulse) :
    ((p.sweptPeriod first).toNat : Int) =
      if p.swDivider = 0 ∧ p.swEnable = true ∧ p.swShift ≠ 0 ∧ p.muted first = false then p.target first
      else p.period.toNat := by
  unfold Pulse.sweptPeriod
  split
  case isTrue sweeps =>
    obtain ⟨-, -, shift, audible⟩ := sweeps
    obtain ⟨low, high⟩ := Pulse.target_fits shift audible
    rw [BitVec.toNat_ofInt]
    omega
  case isFalse stays => rfl

/-- The fields that the sweep clock changes (63_apu.md R512). -/
theorem Pulse.clockSweep_eq (first : Bool) (p : Pulse) :
    p.clockSweep first =
      { p with
        period := p.sweptPeriod first
        swDivider := if p.swDivider = 0 ∨ p.swReload = true then p.swPeriod else p.swDivider - 1
        swReload := false } := by
  unfold Pulse.clockSweep
  split
  case isTrue reloads => rfl
  case isFalse counts =>
    have noReload : p.swReload = false := Bool.eq_false_iff.mpr fun reload => counts (.inr reload)
    rw [noReload]

/-- A muted channel or one of length 0 is silent (63_apu.md R514). -/
theorem Pulse.out_silent {first : Bool} {p : Pulse} (h : p.muted first = true ∨ p.length = 0) : p.out first = 0 :=
  if_pos (h.elim (fun muted => .inr (.inl muted)) .inl)

/-! ### The mixer -/

theorem Envelope.out_le (e : Envelope) : e.out ≤ 15 := by
  unfold Envelope.out
  split <;> omega

theorem Pulse.out_le (first : Bool) (p : Pulse) : p.out first ≤ 15 := by
  unfold Pulse.out
  split
  · exact Nat.zero_le _
  · exact Envelope.out_le _

theorem Triangle.out_le (t : Triangle) : t.out ≤ 15 := by
  unfold Triangle.out
  split <;> omega

theorem Noise.out_le (n : Noise) : n.out ≤ 15 := by
  unfold Noise.out
  split
  · exact Nat.zero_le _
  · exact Envelope.out_le _

/-- An entry of a mixer table: `pulseTable` and `tndTable` are two of these (63_apu.md R560). -/
def mixerEntry (a b : Rat) (n : Nat) : Rat := if n = 0 then 0 else a / (b / n + 100)

/-- A mixer table grows with its index, from 0. -/
theorem mixerEntry_bounds {a b : Rat} (ha : 0 ≤ a) (hb : 0 ≤ b) {n m : Nat} (le : n ≤ m) :
    0 ≤ mixerEntry a b n ∧ mixerEntry a b n ≤ mixerEntry a b m := by
  have nonneg (k : Nat) : 0 ≤ mixerEntry a b k := by
    unfold mixerEntry
    split
    · exact le_rfl
    · positivity
  refine ⟨nonneg n, ?_⟩
  by_cases zero : n = 0
  · rw [zero]
    exact nonneg m
  · have posN : (0 : Rat) < n := by exact_mod_cast Nat.pos_of_ne_zero zero
    have leN : (n : Rat) ≤ m := by exact_mod_cast le
    rw [mixerEntry, mixerEntry, if_neg zero, if_neg (by omega)]
    gcongr

/-- Both tables at the last index that the channels reach. -/
theorem mixer_full : pulseTable 30 + tndTable 202 < 1 := by norm_num [pulseTable, tndTable]

/-- The mixer output at the levels that the channels can reach. -/
theorem Apu.mixOut_range (u : Apu) : 0 ≤ u.mixOut ∧ u.mixOut < 1 := by
  have p1 := Pulse.out_le true u.p1
  have p2 := Pulse.out_le false u.p2
  have tri := Triangle.out_le u.tri
  have noise := Noise.out_le u.noise
  have dmc := u.dmc.level.isLt
  have pulse : 0 ≤ pulseTable _ ∧ pulseTable _ ≤ pulseTable 30 :=
    mixerEntry_bounds (by norm_num) (by norm_num) (show u.p1.out true + u.p2.out false ≤ 30 by omega)
  have tnd : 0 ≤ tndTable _ ∧ tndTable _ ≤ tndTable 202 :=
    mixerEntry_bounds (by norm_num) (by norm_num)
      (show 3 * u.tri.out + 2 * u.noise.out + u.dmc.level.toNat ≤ 202 by omega)
  exact ⟨add_nonneg pulse.1 tnd.1, (add_le_add pulse.2 tnd.2).trans_lt mixer_full⟩

/-- Settles O52: the sweep clock field by field, silence, and the mixer from the levels of its channels. -/
theorem audioOutputs : Obligations.AudioOutputs := by
  refine ⟨fun first p => ?_, Apu.mixOut_range⟩
  intro q delta target muted
  have target_eq : p.target first = target := Pulse.target_eq first p
  have muted_eq : p.muted first = muted := (Pulse.muted_eq first p).trans (by rw [target_eq])
  have q_eq : q = _ := Pulse.clockSweep_eq first p
  rw [← muted_eq, ← target_eq, q_eq]
  exact ⟨Pulse.sweptPeriod_eq first p, rfl, rfl, Pulse.out_silent⟩

end Sys2Proof.Machine
end

section
/-! PROOFS about the frame sequencer (`FrameInterruptTiming`). With no reset pending a tick is a function of the
sequencer's own part of the audio unit, which is followed through one sequence. -/

namespace Sys2Proof.Machine

/-- The frame sequencer: mode, inhibit, position, pending reset and interrupt flag (63_apu.md R504). -/
structure FrameSeq where
  mode5 : Bool
  inhibit : Bool
  seqCycle : Nat
  fcDelay : Nat
  frameIrq : Bool

/-- That part of the audio unit. -/
def Apu.frameSeq (u : Apu) : FrameSeq :=
  { mode5 := u.mode5, inhibit := u.inhibit, seqCycle := u.seqCycle, fcDelay := u.fcDelay, frameIrq := u.frameIrq }

/-- The ticks of one sequence (63_apu.md R530). -/
def FrameSeq.length (f : FrameSeq) : Nat := if f.mode5 then 37282 else 29830

/-- Whether the interrupt is raised on arriving at position `n` (63_apu.md R530, R532). -/
def FrameSeq.raises (f : FrameSeq) (n : Nat) : Bool := !f.mode5 && !f.inhibit && decide (29828 ≤ n ∧ n ≤ 29830)

theorem Apu.frameSeq_pulseTimers (u : Apu) : u.pulseTimers.frameSeq = u.frameSeq := by
  unfold Apu.pulseTimers
  split <;> rfl

/-- The sequencer after the work of position `f.seqCycle`: back to 0 at the end, the flag raised where it is. -/
def FrameSeq.arrived (f : FrameSeq) : FrameSeq :=
  { f with
    seqCycle := if f.seqCycle = f.length then 0 else f.seqCycle, frameIrq := f.frameIrq || f.raises f.seqCycle }

theorem FrameSeq.arrived_early {f : FrameSeq} (early : f.seqCycle < 29828) : f.arrived = f := by
  have inside : f.seqCycle ≠ f.length := by
    unfold FrameSeq.length
    split <;> omega
  rw [FrameSeq.arrived, FrameSeq.raises, if_neg inside, decide_eq_false (by omega), Bool.and_false, Bool.or_false]

theorem FrameSeq.arrived_fiveStep {f : FrameSeq} (mode : f.mode5 = true) :
    f.arrived = { f with seqCycle := if f.seqCycle = 37282 then 0 else f.seqCycle } := by
  rw [FrameSeq.arrived, FrameSeq.raises, FrameSeq.length, mode, Bool.not_true, Bool.false_and, Bool.false_and,
    Bool.or_false, if_pos rfl]

theorem FrameSeq.arrived_fourStep {f : FrameSeq} (mode : f.mode5 = false) :
    f.arrived =
      { f with
        seqCycle := if f.seqCycle = 29830 then 0 else f.seqCycle
        frameIrq := f.frameIrq || (!f.inhibit && decide (29828 ≤ f.seqCycle ∧ f.seqCycle ≤ 29830)) } := by
  rw [FrameSeq.arrived, FrameSeq.raises, FrameSeq.length, mode, Bool.not_false, Bool.true_and,
    if_neg Bool.false_ne_true]

/-- The work of a step by its position, as far as the sequencer goes. -/
theorem Apu.frameSeq_sequencerStep (u : Apu) : u.sequencerStep.frameSeq = u.frameSeq.arrived := by
  have clocked (v : Apu) (same : v.frameSeq = u.frameSeq) (early : u.seqCycle < 29828) :
      v.frameSeq = u.frameSeq.arrived := same.trans (FrameSeq.arrived_early (f := u.frameSeq) early).symm
  unfold Apu.sequencerStep
  split
  · exact clocked _ rfl (by omega)
  split
  · exact clocked _ rfl (by omega)
  split
  · exact clocked _ rfl (by omega)
  have seqCycle : u.frameSeq.seqCycle = u.seqCycle := rfl
  split
  case isTrue mode =>
    rw [FrameSeq.arrived_fiveStep (f := u.frameSeq) mode, seqCycle]
    split
    case isTrue at37281 =>
      rw [if_neg (by omega)]
      rfl
    split
    case isTrue at37282 => rfl
    case isFalse => rfl
  case isFalse mode =>
    rw [FrameSeq.arrived_fourStep (f := u.frameSeq) (Bool.eq_false_iff.mpr mode), seqCycle]
    have raised (v : Apu) : v.frameIrqSet.frameSeq = { v.frameSeq with frameIrq := v.frameIrq || !v.inhibit } := rfl
    split
    case isTrue at28 =>
      rw [raised]
      simp [at28, Apu.frameSeq]
    split
    case isTrue at29 =>
      rw [raised, show u.quarter.half.frameSeq = u.frameSeq from rfl]
      simp [at29, Apu.frameSeq, Apu.quarter, Apu.half]
    split
    case isTrue at30 => simp [at30, Apu.frameSeq, Apu.frameIrqSet]
    case isFalse =>
      rw [decide_eq_false (by omega), Bool.and_false, Bool.or_false]
      rfl

/-- With no reset pending a tick arrives at the next position. -/
theorem Apu.frameSeq_tick {u : Apu} (noReset : u.fcDelay = 0) :
    u.tick.frameSeq = FrameSeq.arrived { u.frameSeq with seqCycle := u.seqCycle + 1 } := by
  have sequencer : u.tick.frameSeq = (Apu.sequencerTick { u with apuOdd := !u.apuOdd }).frameSeq :=
    Apu.frameSeq_pulseTimers _
  have step : ¬ u.fcDelay = 1 := by omega
  rw [sequencer, Apu.sequencerTick, if_neg step, Apu.frameSeq_sequencerStep, Apu.frameSeq, Apu.frameSeq, noReset]

/-- Ticks add up at the end. -/
theorem apuTicks_succ (k : Nat) (u : Apu) : apuTicks (k + 1) u = (apuTicks k u).tick := by
  induction k generalizing u with
  | zero => rfl
  | succ k ih => exact ih u.tick

/-- The position after `k` ticks of a sequence, and the flag, which is set from position 29828 on. -/
theorem apuTicks_frameSeq {u : Apu} (noReset : u.fcDelay = 0) (start : u.seqCycle = 0) {k : Nat}
    (h : k < u.frameSeq.length) :
    (apuTicks k u).frameSeq =
      { u.frameSeq with
        seqCycle := k, frameIrq := u.frameIrq || (!u.mode5 && !u.inhibit && decide (29828 ≤ k)) } := by
  induction k with
  | zero =>
    have early : decide (29828 ≤ 0) = false := by decide
    rw [early, Bool.and_false, Bool.or_false]
    exact congrArg (fun n => { u.frameSeq with seqCycle := n }) start
  | succ k ih =>
    have before := ih (by omega)
    have noReset' : (apuTicks k u).fcDelay = 0 := (congrArg FrameSeq.fcDelay before).trans noReset
    have at_ : (apuTicks k u).seqCycle = k := congrArg FrameSeq.seqCycle before
    rw [apuTicks_succ, Apu.frameSeq_tick noReset', at_, before]
    cases mode : u.mode5 with
    | true =>
      have length : u.frameSeq.length = 37282 := if_pos mode
      have inside : k + 1 ≠ 37282 := by omega
      rw [FrameSeq.arrived_fiveStep mode, if_neg inside]
      simp only [Bool.not_true, Bool.false_and, Bool.or_false]
    | false =>
      have length : u.frameSeq.length = 29830 := if_neg (ne_true_of_eq_false mode)
      have inside : k + 1 ≠ 29830 := by omega
      have reached : (29828 ≤ k ∨ 29828 ≤ k + 1 ∧ k + 1 ≤ 29830) ↔ 29828 ≤ k + 1 := by omega
      rw [FrameSeq.arrived_fourStep mode, if_neg inside]
      simp only [show u.frameSeq.inhibit = u.inhibit from rfl, Bool.not_false, Bool.true_and, Bool.or_assoc,
        ← Bool.and_or_distrib_left, ← Bool.decide_or, reached]

/-- The tick after the last position starts the sequence again. -/
theorem apuTicks_length {u : Apu} (noReset : u.fcDelay = 0) (start : u.seqCycle = 0) {k : Nat}
    (last : k + 1 = u.frameSeq.length) : (apuTicks (k + 1) u).seqCycle = 0 := by
  have before := apuTicks_frameSeq noReset start (k := k) (by omega)
  have noReset' : (apuTicks k u).fcDelay = 0 := (congrArg FrameSeq.fcDelay before).trans noReset
  have at_ : (apuTicks k u).seqCycle = k := congrArg FrameSeq.seqCycle before
  have tick := congrArg FrameSeq.seqCycle (Apu.frameSeq_tick noReset')
  rw [at_, before] at tick
  rw [apuTicks_succ]
  exact tick.trans (if_pos last)

/-- In 5-step mode, or with the inhibit, the flag stays clear (63_apu.md R532, R533). -/
theorem apuTicks_frameIrq {u : Apu} (silent : u.mode5 = true ∨ u.inhibit = true) (noReset : u.fcDelay = 0)
    (clear : u.frameIrq = false) (k : Nat) : (apuTicks k u).frameIrq = false := by
  have quiet (f : FrameSeq) (h : f.mode5 = true ∨ f.inhibit = true) (n : Nat) : f.raises n = false := by
    rcases h with mode | inhibit
    · rw [FrameSeq.raises, mode]
      rfl
    · rw [FrameSeq.raises, inhibit, Bool.not_true, Bool.and_false]
      rfl
  induction k generalizing u with
  | zero => exact clear
  | succ k ih =>
    have tick := Apu.frameSeq_tick noReset
    have mode : u.tick.mode5 = u.mode5 := congrArg FrameSeq.mode5 tick
    have inhibit : u.tick.inhibit = u.inhibit := congrArg FrameSeq.inhibit tick
    have irq := congrArg FrameSeq.frameIrq tick
    rw [FrameSeq.arrived, quiet _ silent, Bool.or_false] at irq
    exact ih (by rwa [mode, inhibit]) ((congrArg FrameSeq.fcDelay tick).trans noReset) (irq.trans clear)

/-- Settles O53: the position and the flag through one sequence, and the flag that is never raised. -/
theorem frameInterruptTiming : Obligations.FrameInterruptTiming := by
  intro u noReset start clear
  have flag {k : Nat} (h : k < u.frameSeq.length) :
      (apuTicks k u).frameIrq = (u.frameIrq || (!u.mode5 && !u.inhibit && decide (29828 ≤ k))) :=
    congrArg FrameSeq.frameIrq (apuTicks_frameSeq noReset start h)
  have fourStep (mode : u.mode5 = false) : u.frameSeq.length = 29830 := if_neg (ne_true_of_eq_false mode)
  refine ⟨fun mode inhibit => ⟨fun k before => ?before, ?raised⟩,
    fun mode => apuTicks_length noReset start (fourStep mode).symm,
    fun silent => apuTicks_frameIrq silent noReset clear,
    fun mode => apuTicks_length noReset start (if_pos (c := u.mode5 = true) mode).symm⟩
  case before =>
    rw [flag (by rw [fourStep mode]; omega), clear, decide_eq_false (by omega), Bool.and_false, Bool.or_false]
  case raised => rw [flag (by rw [fourStep mode]; omega), mode, inhibit, decide_eq_true (by omega), clear]; rfl

end Sys2Proof.Machine
end

section
/-! PROOFS about loading an image (`LoadRefusals`): the checks of a load in plain arithmetic, the chain they form, and
the bytes of a memory built from a list. -/

namespace Sys2Proof.Machine

/-! ### Memories built from bytes -/

/-- The bytes of a memory built from a list stand in their order; beyond them nothing is listed. -/
theorem Memory.read_ofBytes (bytes : List Byte) (a k : Nat) :
    (Memory.ofBytes a bytes).read (a + k) = bytes.getD k 0 := by
  induction bytes generalizing a k with
  | nil => rfl
  | cons b bs ih =>
    rw [Memory.ofBytes]
    cases k with
    | zero =>
      refine Memory.read_cons_same a b _ ?_
      by_cases unlisted : b = Memory.unlisted
      · refine .inr ?_
        rw [unlisted]
        exact Memory.read_below _ _ _ (Memory.wfFrom_ofBytes bs (a + 1)) (Nat.lt_succ_self a)
      · exact .inl unlisted
    | succ k =>
      rw [Memory.read_cons_other _ _ _ _ (by omega), ← Nat.add_assoc, Nat.add_right_comm, ih]
      rfl

theorem Memory.read_ofBytes_zero (bytes : List Byte) (k : Nat) : (Memory.ofBytes 0 bytes).read k = bytes.getD k 0 := by
  rw [← Memory.read_ofBytes bytes 0 k, Nat.zero_add]

/-- A part of a list that is cut out reads as the list does there. -/
theorem getD_take_drop (bytes : List Byte) {start size k : Nat} (h : k < size) :
    ((bytes.drop start).take size).getD k 0 = bytes.getD (start + k) 0 := by
  rw [List.getD_eq_getElem?_getD, List.getElem?_take_of_lt h, List.getElem?_drop, ← List.getD_eq_getElem?_getD]

/-! ### The checks of a load -/

/-- A bit as a digit of the number. -/
theorem getLsbD_eq_digit (b : Byte) (i : Nat) : b.getLsbD i = decide (b.toNat / 2 ^ i % 2 = 1) := by
  rw [BitVec.getLsbD, Nat.testBit_eq_decide_div_mod_eq]

theorem imageSigned_iff (f : List Byte) :
    imageSigned f = true ↔ ¬ (f.length < 16 ∨ f.take 4 ≠ [0x4E, 0x45, 0x53, 0x1A]) := by
  rw [imageSigned, Bool.and_eq_true, decide_eq_true_eq, beq_iff_eq, not_or, Nat.not_lt, not_not]
  rfl

/-- Where PRG data starts, by the trainer bit. -/
theorem imagePrgOffset_eq (f : List Byte) :
    imagePrgOffset f = if (f.getD 6 0).toNat / 4 % 2 = 1 then 528 else 16 := by
  rw [imagePrgOffset, imageByte, getLsbD_eq_digit]
  simp only [decide_eq_true_eq]
  rfl

theorem imageComplete_iff (f : List Byte) :
    imageComplete f = true ↔
      ¬ (imagePrgSize f = 0 ∨ f.length < imagePrgOffset f + imagePrgSize f + imageChrSize f) := by
  rw [imageComplete, Bool.and_eq_true, decide_eq_true_eq, bne_iff_ne, not_or, Nat.not_lt]

/-- The mapper number, with bits 11:8 where the header is an extended one. -/
theorem imageMapper_eq (f : List Byte) :
    let byte (k : Nat) : Nat := (f.getD k 0).toNat
    imageMapper f =
      byte 6 / 16 + 16 * (byte 7 / 16) + (if byte 7 / 4 % 4 = 2 then 256 * (byte 8 % 16) else 0) := by
  rw [imageMapper, Nat.mul_comm (_ / 16), Nat.mul_comm (_ % 16)]
  rfl

theorem saveFileOk_iff (f : List Byte) (save : Option (List Byte)) :
    saveFileOk f save = true ↔
      ¬ ((f.getD 6 0).toNat / 2 % 2 = 1 ∧ ∃ b, save = some b ∧ b.length ≠ 8192) := by
  rw [saveFileOk, imageBattery, imageByte, getLsbD_eq_digit]
  cases save <;> simp [imp_iff_not_or]

theorem imageMirroring_eq (f : List Byte) :
    imageMirroring f =
      if (f.getD 6 0).toNat / 8 % 2 = 1 then .fourScreen
      else if (f.getD 6 0).toNat % 2 = 1 then .vertical
      else .horizontal := by
  rw [imageMirroring, imageByte, getLsbD_eq_digit, getLsbD_eq_digit]
  simp only [decide_eq_true_eq, Nat.pow_zero, Nat.div_one]
  rfl

/-- A mapper number of the five is the variant it names. -/
theorem variant_mapperOf {number : Nat} (h : number ≤ 4) : (mapperOf number).variant = number := by
  match number, h with
  | 0, _ | 1, _ | 2, _ | 3, _ | 4, _ => rfl

/-! ### The chain they form -/

/-- The cartridge that an accepted image gives (64_cartridge_mappers.md R571). -/
def loadedCart (l : Launch) : Cart :=
  let data := l.image.drop (imagePrgOffset l.image)
  { prgRom := Memory.ofBytes 0 (data.take (imagePrgSize l.image))
    prgBanks16 := (imageByte l.image 4).toNat
    chr :=
      if imageChrSize l.image = 0 then Memory.ofBytes 0 (l.chrRamInit.take 8192)
      else Memory.ofBytes 0 ((data.drop (imagePrgSize l.image)).take (imageChrSize l.image))
    chrBanks8 := (imageByte l.image 5).toNat
    prgRam := prgRamAtAttach l
    battery := imageBattery l.image
    headerMirroring := imageMirroring l.image
    mirroring := imageMirroring l.image
    mapper := mapperOf (imageMapper l.image) }

/-- A load, check by check. -/
theorem load_eq (l : Launch) :
    load l =
      if imageSigned l.image then
        if imageComplete l.image then
          if imageSupported l.image then
            if saveFileOk l.image l.save then .ok (loadedCart l) else .error .corruptSave
          else .error .unsupportedMapper
        else .error .truncated
      else .error .malformedHeader := by
  have flip (b : Bool) (x y : Except LoadError Cart) : (if !b then x else y) = if b then y else x := by
    cases b <;> rfl
  simp only [load, flip]
  rfl

/-- A check refuses for its reason exactly if it fails, where no later one gives that reason. -/
theorem refusal_iff {b : Prop} [Decidable b] {x : Except LoadError Cart} {e : LoadError} (other : x ≠ .error e) :
    (if b then x else .error e) = .error e ↔ ¬ b := by
  split
  case isTrue passes => exact ⟨fun h => absurd h other, fun h => absurd passes h⟩
  case isFalse fails => exact ⟨fun _ => fails, fun _ => rfl⟩

/-- Settles O39: the chain of checks, each in plain arithmetic; an accepted image gives `loadedCart`. -/
theorem loadRefusals : Obligations.LoadRefusals := by
  intro l f byte prg chr start number
  have start_eq : imagePrgOffset f = start := imagePrgOffset_eq f
  have complete : imageComplete f = true ↔ ¬ (prg = 0 ∨ f.length < start + prg + chr) := start_eq ▸ imageComplete_iff f
  have supported : imageSupported f = true ↔ number ≤ 4 := by
    rw [imageSupported, decide_eq_true_eq, imageMapper_eq]
  have load_eq := load_eq l
  refine ⟨?malformed, fun long signature => ?signed⟩
  case malformed =>
    rw [load_eq, refusal_iff, imageSigned_iff, not_not]
    repeat' split
    all_goals nofun
  have signed : imageSigned f = true := (imageSigned_iff f).mpr (by simp [long, signature])
  rw [if_pos signed] at load_eq
  refine ⟨?truncated, fun hasPrg whole => ?complete⟩
  case truncated =>
    rw [load_eq, refusal_iff, complete, not_not]
    repeat' split
    all_goals nofun
  rw [if_pos (complete.mpr (by omega))] at load_eq
  refine ⟨?unsupported, fun known => ?known⟩
  case unsupported =>
    rw [load_eq, refusal_iff, supported, Nat.not_le]
    split
    all_goals nofun
  rw [if_pos (supported.mpr known)] at load_eq
  refine ⟨?corrupt, fun intact => ?ok⟩
  case corrupt =>
    rw [load_eq, refusal_iff, saveFileOk_iff, not_not]
    nofun
  rw [if_pos ((saveFileOk_iff f l.save).mpr intact)] at load_eq
  refine ⟨loadedCart l, load_eq, rfl, rfl, ?variant, ?battery, rfl, imageMirroring_eq f, fun k inside => ?rom,
    fun some_ k inside => ?pattern⟩
  case variant =>
    refine (congrArg (fun n => (mapperOf n).variant) (imageMapper_eq f)).trans ?_
    exact variant_mapperOf known
  case battery => exact getLsbD_eq_digit _ 1
  case rom =>
    rw [← start_eq]
    exact (Memory.read_ofBytes_zero _ k).trans (getD_take_drop f inside)
  case pattern =>
    have chr_eq : (loadedCart l).chr =
        Memory.ofBytes 0 (((f.drop (imagePrgOffset f)).drop (imagePrgSize f)).take (imageChrSize f)) := if_neg some_
    rw [← start_eq, chr_eq, List.drop_drop, Memory.read_ofBytes_zero]
    exact getD_take_drop f inside

end Sys2Proof.Machine
end

section
/-! PROOFS about MMC1's serial port (`SerialPort`): one write by its three cases, then five writes in a row. -/

namespace Sys2Proof.Machine

/-! ### One write -/

/-- Whether a write in cycle `now` comes one cycle after the last one (64_cartridge_mappers.md R593). -/
def Mmc1.follows (now : Nat) (m : Mmc1) : Bool := m.lastWrite.any fun t => now == t + 1

theorem Mmc1.follows_succ (m : Mmc1) (n : Nat) : m.follows (n + 1) = decide (m.lastWrite = some n) := by
  unfold Mmc1.follows
  cases m.lastWrite with
  | none => rfl
  | some t =>
    rw [Bool.eq_iff_iff, Option.any_some, beq_iff_eq, decide_eq_true_eq, Option.some_inj, Nat.add_right_cancel_iff, eq_comm]

theorem Mmc1.follows_some {m : Mmc1} {now t : Nat} (last : m.lastWrite = some t) (spaced : now ≠ t + 1) :
    m.follows now = false := by
  rw [Mmc1.follows, last]
  exact beq_eq_false_iff_ne.mpr spaced

/-- The shift register with one more bit (64_cartridge_mappers.md R591). -/
def serialShift (s : BitVec 5) (b : Bool) : BitVec 5 := bit b ++ s.extractLsb' 1 4

theorem serialShift_eq (s : BitVec 5) (b : Bool) : (s >>> 1) ||| ((bit b).setWidth 5 <<< 4) = serialShift s b := by
  revert s b
  decide

section
variable {now : Nat} {m : Mmc1} {v : Byte}

theorem Mmc1.write_ignored (follows : m.follows now = true) (a : Word) (v : Byte) :
    m.write now a v = { m with lastWrite := some now } :=
  if_pos follows

theorem Mmc1.write_reset (spaced : m.follows now = false) (a : Word) (top : v.getLsbD 7 = true) :
    m.write now a v = { m with lastWrite := some now, shift := 0x10, control := m.control ||| 0x0C } :=
  (if_neg (ne_true_of_eq_false spaced)).trans (if_pos top)

/-- A serial write that does not find the marker at the end. -/
theorem Mmc1.write_bit (spaced : m.follows now = false) (a : Word) (top : v.getLsbD 7 = false)
    (more : m.shift.getLsbD 0 = false) :
    m.write now a v = { m with lastWrite := some now, shift := serialShift m.shift (v.getLsbD 0) } := by
  rw [← serialShift_eq]
  exact (if_neg (ne_true_of_eq_false spaced)).trans
    ((if_neg (ne_true_of_eq_false top)).trans (if_neg (ne_true_of_eq_false more)))

/-- The serial write that finds the marker at the end. -/
theorem Mmc1.write_load (spaced : m.follows now = false) (a : Word) (top : v.getLsbD 7 = false)
    (full : m.shift.getLsbD 0 = true) :
    m.write now a v =
      Mmc1.load { m with lastWrite := some now, shift := 0x10 } a (serialShift m.shift (v.getLsbD 0)) := by
  rw [← serialShift_eq]
  exact (if_neg (ne_true_of_eq_false spaced)).trans ((if_neg (ne_true_of_eq_false top)).trans (if_pos full))

end

/-- The register number in bits 14:13 of an address. -/
theorem toNat_field_register (a : Word) : (field a 13 2).toNat = a.toNat / 0x2000 % 4 := toNat_field a 13 2

/-- The load changes the register that the address selects (64_cartridge_mappers.md R591). -/
theorem Mmc1.load_eq (m : Mmc1) (a : Word) (full : BitVec 5) :
    let r := a.toNat / 0x2000 % 4
    m.load a full =
      { m with
        control := if r = 0 then full else m.control, chr0 := if r = 1 then full else m.chr0
        chr1 := if r = 2 then full else m.chr1, prg := if r = 3 then full else m.prg } := by
  rw [Mmc1.load, toNat_field_register]
  have below : a.toNat / 0x2000 % 4 < 4 := Nat.mod_lt _ (by decide)
  generalize a.toNat / 0x2000 % 4 = r at below ⊢
  match r, below with
  | 0, _ | 1, _ | 2, _ | 3, _ => rfl

/-! ### Five writes -/

/-- From an empty register the marker reaches the end with the fourth bit, and the fifth completes the value. -/
theorem serialShift_five (b0 b1 b2 b3 b4 : Bool) :
    let s1 := serialShift 0x10 b0
    let s2 := serialShift s1 b1
    let s3 := serialShift s2 b2
    let s4 := serialShift s3 b3
    s1.getLsbD 0 = false ∧ s2.getLsbD 0 = false ∧ s3.getLsbD 0 = false ∧ s4.getLsbD 0 = true ∧
      serialShift s4 b4 = bit b4 ++ bit b3 ++ bit b2 ++ bit b1 ++ bit b0 := by
  revert b0 b1 b2 b3 b4
  decide

theorem bit_getLsbD_zero (v : Byte) : bit (v.getLsbD 0) = v.extractLsb' 0 1 := by
  revert v
  decide

/-- Five spaced serial writes into an empty register are one load of their low bits, the first lowest. -/
theorem Mmc1.write_five {m : Mmc1} {n0 n1 n2 n3 n4 : Nat} {v0 v1 v2 v3 v4 : Byte} (a0 a1 a2 a3 a4 : Word)
    (empty : m.shift = 0x10) (spaced0 : m.follows n0 = false) (spaced1 : n1 ≠ n0 + 1) (spaced2 : n2 ≠ n1 + 1)
    (spaced3 : n3 ≠ n2 + 1) (spaced4 : n4 ≠ n3 + 1) (data : ∀ v ∈ [v0, v1, v2, v3, v4], v.getLsbD 7 = false) :
    Mmc1.write n4 a4 v4 (Mmc1.write n3 a3 v3 (Mmc1.write n2 a2 v2 (Mmc1.write n1 a1 v1 (Mmc1.write n0 a0 v0 m)))) =
      Mmc1.load { m with lastWrite := some n4, shift := 0x10 } a4
        (v4.extractLsb' 0 1 ++ v3.extractLsb' 0 1 ++ v2.extractLsb' 0 1 ++ v1.extractLsb' 0 1 ++ v0.extractLsb' 0 1) := by
  obtain ⟨more1, more2, more3, full4, value⟩ :=
    serialShift_five (v0.getLsbD 0) (v1.getLsbD 0) (v2.getLsbD 0) (v3.getLsbD 0) (v4.getLsbD 0)
  simp only [bit_getLsbD_zero] at value
  have more0 : m.shift.getLsbD 0 = false := by rw [empty]; decide
  rw [Mmc1.write_bit spaced0 a0 (data v0 (by simp)) more0, empty,
    Mmc1.write_bit (Mmc1.follows_some rfl spaced1) a1 (data v1 (by simp)) more1,
    Mmc1.write_bit (Mmc1.follows_some rfl spaced2) a2 (data v2 (by simp)) more2,
    Mmc1.write_bit (Mmc1.follows_some rfl spaced3) a3 (data v3 (by simp)) more3,
    Mmc1.write_load (Mmc1.follows_some rfl spaced4) a4 (data v4 (by simp)) full4, value]

/-! ### At the cartridge -/

/-- The write that loads `control`, and with it the mirroring (64_cartridge_mappers.md R591, R592). -/
theorem Mmc1.loadsControl_eq (m : Mmc1) {a : Word} (above : 0x8000 ≤ a.toNat) (v : Byte) (n : Nat) :
    m.loadsControl (n + 1) a v =
      decide (m.lastWrite ≠ some n ∧ v.getLsbD 7 = false ∧ m.shift.getLsbD 0 = true ∧ a.toNat < 0xA000) := by
  have register : (field a 13 2 == 0) = decide (a.toNat < 0xA000) := by
    rw [Bool.eq_iff_iff, beq_iff_eq, decide_eq_true_eq, ← BitVec.toNat_inj, toNat_field_register]
    have := a.isLt
    change a.toNat / 0x2000 % 4 = 0 ↔ _
    omega
  have loads : m.loadsControl (n + 1) a v =
      (!m.follows (n + 1) && !v.getLsbD 7 && m.shift.getLsbD 0 && field a 13 2 == 0) := rfl
  rw [loads, register, Mmc1.follows_succ, Bool.eq_iff_iff]
  simp [and_assoc]

/-- Settles O54: the five writes as one load, the other two kinds of write, and the write at the cartridge. -/
theorem serialPort : Obligations.SerialPort := by
  refine ⟨fun m a0 a1 a2 a3 a4 v0 v1 v2 v3 v4 n0 n1 n2 n3 n4 empty spaced0 pos spaced1 spaced2 spaced3 spaced4 data => ?five,
    fun m a v n => ⟨fun follows => ?ignored, fun spaced top => ?reset⟩, fun c m a v n mapper above => ?cartridge⟩
  case five =>
    obtain ⟨k, rfl⟩ : ∃ k, n0 = k + 1 := Nat.exists_eq_add_one_of_ne_zero pos
    have spaced : m.follows (k + 1) = false := (Mmc1.follows_succ m k).trans (decide_eq_false spaced0)
    intro w full r
    have w_eq : w = _ := Mmc1.write_five a0 a1 a2 a3 a4 empty spaced spaced1 spaced2 spaced3 spaced4 data
    rw [w_eq, Mmc1.load_eq]
    exact ⟨rfl, rfl, rfl, rfl, rfl, rfl⟩
  case ignored => exact Mmc1.write_ignored ((Mmc1.follows_succ m n).trans (decide_eq_true follows)) a v
  case reset => exact Mmc1.write_reset ((Mmc1.follows_succ m n).trans (decide_eq_false spaced)) a top
  case cartridge =>
    intro w loadsControl
    rw [Cart.cpuWrite_register above, Cart.writeRegister, mapper]
    dsimp only
    rw [Mmc1.loadsControl_eq m above]
    rfl

end Sys2Proof.Machine
end

section
/-! PROOFS about MMC3 (`ScanlineCounter`): its registers, its view of A12, its counter and its mirroring. -/

namespace Sys2Proof.Machine

/-! ### Registers -/

/-- A register answers at every address of its 8 KiB with its parity (64_cartridge_mappers.md R606). -/
theorem Mmc3.write_mirrors {a b : Word} (page : a.toNat / 0x2000 = b.toNat / 0x2000)
    (parity : a.toNat % 2 = b.toNat % 2) (v : Byte) (m : Mmc3) : m.write a v = m.write b v := by
  have register : (field a 13 2).toNat = (field b 13 2).toNat := by
    rw [toNat_field_register, toNat_field_register, page]
  have bit0 : a.getLsbD 0 = b.getLsbD 0 := by
    rw [BitVec.getLsbD, BitVec.getLsbD, Nat.testBit_zero, Nat.testBit_zero, parity]
  rw [Mmc3.write, Mmc3.write, register, bit0]

/-- The eight registers, each at its first address. -/
theorem Mmc3.write_registers (m : Mmc3) (a : Word) (v : Byte) (above : 0x8000 ≤ a.toNat) :
    let w := m.write a v
    let even : Bool := a.toNat % 2 == 0
    (a.toNat < 0xA000 → even = true → w = { m with select := v }) ∧
    (a.toNat < 0xA000 → even = false → ∀ k : Fin 8, w = { m with r := w.r } ∧
      w.r[k] = if k.val = (m.select.extractLsb' 0 3).toNat then v else m.r[k]) ∧
    (0xA000 ≤ a.toNat → a.toNat < 0xC000 → even = true → w = { m with mirrorBit := v.getLsbD 0 }) ∧
    (0xA000 ≤ a.toNat → a.toNat < 0xC000 → even = false → w = { m with ramProtect := v }) ∧
    (0xC000 ≤ a.toNat → a.toNat < 0xE000 → even = true → w = { m with irqLatch := v }) ∧
    (0xC000 ≤ a.toNat → a.toNat < 0xE000 → even = false → w = { m with irqCounter := 0, irqReload := true }) ∧
    (0xE000 ≤ a.toNat → even = true → w = { m with irqEnabled := false, irqPending := false }) ∧
    (0xE000 ≤ a.toNat → even = false → w = { m with irqEnabled := true }) := by
  intro w even
  have limit := a.isLt
  have at_ (first : Word) (page : a.toNat / 0x2000 = first.toNat / 0x2000) (parity : a.toNat % 2 = first.toNat % 2) :
      w = m.write first v := Mmc3.write_mirrors page parity v m
  have even_iff : even = true ↔ a.toNat % 2 = 0 := beq_iff_eq
  have odd_iff : even = false ↔ a.toNat % 2 = 1 := beq_eq_false_iff_ne.trans Nat.mod_two_ne_zero
  simp only [even_iff, odd_iff]
  refine ⟨fun high parity => at_ 0x8000 ?_ parity, fun high parity k => ?bank,
    fun low high parity => at_ 0xA000 ?_ parity, fun low high parity => at_ 0xA001 ?_ parity,
    fun low high parity => at_ 0xC000 ?_ parity, fun low high parity => at_ 0xC001 ?_ parity,
    fun low parity => at_ 0xE000 ?_ parity, fun low parity => at_ 0xE001 ?_ parity⟩
  case bank =>
    have w_eq : w = { m with r := m.r.setIfInBounds (field m.select 0 3).toNat v } := at_ 0x8001 (by simp only [BitVec.reduceToNat]; omega) parity
    rw [w_eq]
    refine ⟨rfl, ?_⟩
    rw [Fin.getElem_fin, Vector.getElem_setIfInBounds]
    simp only [eq_comm]
    rfl
  all_goals
    simp only [BitVec.reduceToNat]
    omega

/-! ### The counter -/

/-- The view of the address bus, by the edge of A12 (64_cartridge_mappers.md R614). -/
theorem Mmc3.setPpuAddress_eq (m : Mmc3) (now : Nat) (p : BitVec 14) :
    m.setPpuAddress now p =
      if p.getLsbD 12 = true ∧ m.a12 = false ∧ 3 ≤ now - m.a12LowAt then { m.clockCounter with a12 := true }
      else if p.getLsbD 12 = false ∧ m.a12 = true then { m with a12 := false, a12LowAt := now }
      else { m with a12 := p.getLsbD 12 } := by
  unfold Mmc3.setPpuAddress
  cases level : p.getLsbD 12 <;> cases before : m.a12
  case false.false | false.true => simp
  case true.true => simp
  case true.false =>
    by_cases filtered : 3 ≤ now - m.a12LowAt
    · simp [filtered]
    · simp [filtered]

/-- Clocks add up at the end. -/
theorem mmc3Clocks_succ (k : Nat) (m : Mmc3) : mmc3Clocks (k + 1) m = (mmc3Clocks k m).clockCounter := by
  induction k generalizing m with
  | zero => rfl
  | succ k ih => exact ih m.clockCounter

/-- A counter that was reloaded `k` clocks ago: it has counted down from the latch, and the interrupt is pending once
it is 0. -/
structure Mmc3.CountedDown (m : Mmc3) (k : Nat) (w : Mmc3) : Prop where
  latch : w.irqLatch = m.irqLatch
  enabled : w.irqEnabled = true
  reload : w.irqReload = false
  counter : w.irqCounter.toNat = m.irqLatch.toNat - k
  pending : w.irqPending = decide (m.irqLatch.toNat ≤ k)

/-- The clock after a reload takes the latch (64_cartridge_mappers.md R615). -/
theorem Mmc3.countedDown_zero {m : Mmc3} (reload : m.irqReload = true) (enabled : m.irqEnabled = true)
    (pending : m.irqPending = false) : m.CountedDown 0 m.clockCounter := by
  have counter : m.clockCounter.irqCounter = m.irqLatch := if_pos (.inr reload)
  refine ⟨rfl, enabled, rfl, congrArg BitVec.toNat counter, ?_⟩
  have raised : m.clockCounter.irqPending = (m.irqPending || (m.clockCounter.irqCounter == 0 && m.irqEnabled)) := rfl
  rw [raised, counter, pending, enabled, Bool.false_or, Bool.and_true, Bool.eq_iff_iff, beq_iff_eq, decide_eq_true_eq,
    Nat.le_zero]
  exact BitVec.toNat_inj.symm

/-- A later clock counts down (64_cartridge_mappers.md R615). -/
theorem Mmc3.CountedDown.clock {m w : Mmc3} {k : Nat} (h : m.CountedDown k w) (more : k < m.irqLatch.toNat) :
    m.CountedDown (k + 1) w.clockCounter := by
  have latch := h.counter
  have nonzero : ¬ (w.irqCounter = 0 ∨ w.irqReload = true) := by
    rintro (zero | reload)
    · rw [zero] at latch
      change 0 = _ at latch
      omega
    · exact Bool.false_ne_true (h.reload.symm.trans reload)
  have counter : w.clockCounter.irqCounter = w.irqCounter - 1 := if_neg nonzero
  have counter' : w.clockCounter.irqCounter.toNat = m.irqLatch.toNat - (k + 1) := by
    rw [counter]
    bv_omega
  refine ⟨h.latch, h.enabled, rfl, counter', ?_⟩
  have raised : w.clockCounter.irqPending = (w.irqPending || (w.clockCounter.irqCounter == 0 && w.irqEnabled)) := rfl
  rw [raised, h.pending, h.enabled, decide_eq_false (by omega), Bool.false_or, Bool.and_true, Bool.eq_iff_iff, beq_iff_eq,
    decide_eq_true_eq, ← BitVec.toNat_inj, counter']
  change _ = 0 ↔ _
  omega

theorem Mmc3.countedDown_clocks {m : Mmc3} (reload : m.irqReload = true) (enabled : m.irqEnabled = true)
    (pending : m.irqPending = false) {k : Nat} (h : k ≤ m.irqLatch.toNat) : m.CountedDown k (mmc3Clocks (k + 1) m) := by
  induction k with
  | zero => exact Mmc3.countedDown_zero reload enabled pending
  | succ k ih =>
    rw [mmc3Clocks_succ]
    exact (ih (by omega)).clock h

/-! ### At the cartridge -/

/-- The writes that set the mirroring (64_cartridge_mappers.md R606, R616). -/
theorem mmc3SetsMirroring_eq {a : Word} (above : 0x8000 ≤ a.toNat) :
    mmc3SetsMirroring a = decide (0xA000 ≤ a.toNat ∧ a.toNat < 0xC000 ∧ a.toNat % 2 = 0) := by
  have limit := a.isLt
  rw [mmc3SetsMirroring, BitVec.getLsbD, Nat.testBit_zero, Bool.eq_iff_iff, Bool.and_eq_true, beq_iff_eq,
    ← BitVec.toNat_inj, toNat_field_register, Bool.not_eq_true', decide_eq_false_iff_not, decide_eq_true_eq]
  change a.toNat / 0x2000 % 4 = 1 ∧ _ ↔ _
  omega

/-- Settles O55: the registers, the edges of A12, the counter from its reload on, and the write at the cartridge. -/
theorem scanlineCounter : Obligations.ScanlineCounter := by
  refine ⟨Mmc3.write_registers, Mmc3.setPpuAddress_eq, fun m reload enabled pending => ⟨fun k before => ?before, ?raised⟩,
    fun c m a v n mapper above => ?cartridge⟩
  case before =>
    cases k with
    | zero => exact pending
    | succ k =>
      rw [(Mmc3.countedDown_clocks reload enabled pending (by omega)).pending, decide_eq_false (by omega)]
  case raised =>
    rw [(Mmc3.countedDown_clocks reload enabled pending (Nat.le_refl _)).pending, decide_eq_true (Nat.le_refl _)]
  case cartridge =>
    intro setsMirroring
    have sets : (mmc3SetsMirroring a && c.headerMirroring != .fourScreen) = setsMirroring := by
      rw [mmc3SetsMirroring_eq above, Bool.eq_iff_iff]
      simp [setsMirroring, and_assoc]
    rw [Cart.cpuWrite_register above, Cart.writeRegister, mapper]
    dsimp only
    rw [sets]

end Sys2Proof.Machine
end

section
/-! PROOFS about the reset sequence (`ResetSequence`) and the reset state (`ResetInv`). The sequence is seven reads with
changes of S and of I between them. -/

namespace Sys2Proof.Machine

/-! ### The reads before the vector -/

/-- A suppressed push keeps everything but S (70_reset_and_hazards.md R630). -/
theorem Kept.resetPush {s t : State} (k : Kept s t) : Kept (s.setS (s.s - 1)) (resetPush t) := by
  have read : Kept s (dummyStackRead t) := k.trans (kept_dummyStackRead t)
  rw [Machine.resetPush, read.s]
  exact read.setS _

theorem takes_resetPush (s : State) : Takes 1 s (resetPush s) := (takes_dummyStackRead s).trans (takes_setS _ _)

/-- The state after the three suppressed pushes. -/
def resetPushed (s : State) : State :=
  resetPush (resetPush (resetPush (dummyRead (dummyRead s.pc s).pc (dummyRead s.pc s))))

theorem kept_resetPushed (s : State) : Kept (s.setS (s.s - 3)) (resetPushed s) := by
  have three : s.s - 1 - 1 - 1 = s.s - 3 := (congrArg (· - 1) (sub_one_one s.s)).trans (sub_two_one s.s)
  exact three ▸ (kept_beforeInterrupt s).resetPush.resetPush.resetPush

theorem takes_resetPushed (s : State) : Takes 5 s (resetPushed s) :=
  (takes_dummyRead _ s).trans <| (takes_dummyRead _ _).trans <| (takes_resetPush _).trans <|
    (takes_resetPush _).trans (takes_resetPush _)

/-- The state in which the vector is read. -/
def resetMasked (s : State) : State := (resetPushed s).setP { (resetPushed s).p with i := true }

theorem kept_resetMasked (s : State) : Kept ((s.setS (s.s - 3)).setP { s.p with i := true }) (resetMasked s) := by
  have k := kept_resetPushed s
  rw [resetMasked, k.p]
  exact k.setP _

theorem takes_resetMasked (s : State) : Takes 5 s (resetMasked s) := (takes_resetPushed s).trans (takes_setP _ _)

/-! ### The vector -/

/-- The state after the low byte of the vector was read, and after both. -/
def resetLow (s : State) : State := (busRead 0xFFFC (resetMasked s)).2
def resetHigh (s : State) : State := (busRead 0xFFFD (resetLow s)).2

theorem kept_resetLow (s : State) : Kept ((s.setS (s.s - 3)).setP { s.p with i := true }) (resetLow s) :=
  (kept_resetMasked s).trans (kept_busRead _ _)

theorem kept_resetHigh (s : State) : Kept ((s.setS (s.s - 3)).setP { s.p with i := true }) (resetHigh s) :=
  (kept_resetLow s).trans (kept_busRead _ _)

theorem takes_resetHigh (s : State) : Takes 7 s (resetHigh s) :=
  ((takes_resetMasked s).trans (takes_busRead _ _)).trans (takes_busRead _ _)

/-- The reset sequence is those seven reads, and then PC from the last two. -/
theorem resetSequence_eq (s : State) :
    resetSequence s =
      (resetHigh s).setPc (mk16 (busRead 0xFFFD (resetLow s)).1 (busRead 0xFFFC (resetMasked s)).1) := rfl

theorem takes_resetSequence (s : State) : Takes 7 s (resetSequence s) := by
  rw [resetSequence_eq]
  exact (takes_resetHigh s).trans (takes_setPc _ _)

/-- PC is what the cartridge answers at the vector. -/
theorem resetSequence_pc {s : State} {lo hi : Byte} (hlo : s.cart.cpuRead 0xFFFC = some lo)
    (hhi : s.cart.cpuRead 0xFFFD = some hi) : (resetSequence s).pc = hi ++ lo := by
  have low := busRead_cart 0xFFFC (resetMasked s) lo (by decide) (((kept_resetMasked s).cart.cpuRead _).trans hlo)
  have high := busRead_cart 0xFFFD (resetLow s) hi (by decide) (((kept_resetLow s).cart.cpuRead _).trans hhi)
  rw [resetSequence_eq, low, high]
  rfl

/-! ### The reset state -/

/-- Settles O58: the reset state is a concrete one, on which the invariant evaluates. -/
theorem resetInv : Obligations.ResetInv := by
  unfold Obligations.ResetInv
  decide

end Sys2Proof.Machine

namespace Sys2Proof.Laws

open Sys2Proof.Machine

/-- Settles O37: the seven reads keep everything but S and I; the last two give PC. -/
theorem resetSequence : Obligations.ResetSequence := by
  intro s t
  have k := (kept_resetHigh s).setPc t.pc
  have t_eq : (resetHigh s).setPc t.pc = t := by
    unfold t
    rw [resetSequence_eq, State.setPc_pc]
  rw [t_eq] at k
  exact ⟨k.byteAt, k.a, k.x, k.y, k.s, k.p, k.runState,
    fun quiet => (takes_resetSequence s _ (.of_dmcQuiet quiet)).cycles, fun _ _ => resetSequence_pc⟩

end Sys2Proof.Laws
end

section
/-! PROOFS about attaching a cartridge (`AttachLeaves`). During the reset sequence rendering is off, no channel runs and
no interrupt is due, so a read bus cycle only counts: one tick of the audio unit and three dots of backdrop. The machine
after `k` such cycles is written down, and the sequence is followed through it. -/

namespace Sys2Proof.Machine

/-! ### The picture unit -/

/-- The frame buffer after `d` dots of line 0 that show the backdrop (62_ppu.md R466). -/
def backdropDots (palette : Vector (BitVec 6) 32) : Nat → Memory
  | 0 => []
  | d + 1 =>
    if 1 ≤ d ∧ d ≤ 256 then (backdropDots palette d).write (d - 1) (palette[0].setWidth 8) else backdropDots palette d

/-- The picture unit at dot `d` of line 0 after power-on. -/
def Ppu.waited (oam ntRam : Memory) (palette : Vector (BitVec 6) 32) (d : Nat) : Ppu :=
  { Ppu.powerOn oam ntRam palette with dot := d, frame := backdropDots palette d }

theorem Ppu.tick_waited (oam ntRam : Memory) (palette : Vector (BitVec 6) 32) {d : Nat} (h : d < 340) (n now : Nat)
    (c : Cart) :
    (Ppu.waited oam ntRam palette d).tick n now c = (Ppu.waited oam ntRam palette (d + 1), c) := by
  have inside : d ≠ 340 := by omega
  have colour : palette[0] &&& 0x3F#6 = palette[0] := BitVec.and_allOnes
  have hidden (i : Nat) : (Ppu.waited oam ntRam palette d).mask.getLsbD i = false := BitVec.getLsbD_zero
  rw [renderingDisabledHolds n now (Ppu.waited oam ntRam palette d) c (hidden 3) (hidden 4)]
  simp [Ppu.waited, Ppu.powerOn, backdropDots, inside, colour]

/-! ### The machine -/

/-- No interrupt, request or delay is due. -/
structure AtRest (s : State) : Prop where
  nmiLine : s.nmiLine = false
  nmiRaised : s.nmiRaised = false
  nmiPending : s.nmiPending = false
  irqRaised : s.irqRaised = false
  irqPending : s.irqPending = false
  dmaDelay : s.dmaDelay = 0
  dmcRequest : s.dmcRequest = false
  cart : s.cart.irqLine = false

/-- The machine with its units `t` ticks and `d` dots after power-on. -/
def State.unitsAt (k t d : Nat) (s : State) : State :=
  { s with
    cycles := k, apu := apuTicks t Apu.powerOn, ppu := Ppu.waited s.ppu.oam s.ppu.ntRam s.ppu.palette d }

/-- The machine after `k` bus cycles that only count. -/
def State.waited (k : Nat) (s : State) : State := s.unitsAt k k (3 * k)

theorem tickPpus_unitsAt (s : State) (k t : Nat) {j d : Nat} (h : d + j ≤ 340) :
    tickPpus j (s.unitsAt k t d) = s.unitsAt k t (d + j) := by
  induction j generalizing d with
  | zero => rfl
  | succ j ih =>
    have dot : tickPpu (s.unitsAt k t d) = s.unitsAt k t (d + 1) := by
      simp only [tickPpu, State.unitsAt, Ppu.tick_waited _ _ _ (show d < 340 by omega)]
    rw [tickPpus, dot, ih (by omega), Nat.add_right_comm, Nat.add_assoc]

/-- No sample is playing after power-on. -/
theorem apuTicks_bytesLeft (k : Nat) : (apuTicks k Apu.powerOn).dmc.bytesLeft = 0 := by
  induction k with
  | zero => rfl
  | succ k ih => rw [apuTicks_succ, bytesLeft_tick, ih]

/-- No interrupt of the audio unit is raised in the first ticks. -/
theorem apuTicks_irqLine {k : Nat} (h : k < 29828) : (apuTicks k Apu.powerOn).irqLine = false := by
  have dmc : (apuTicks k Apu.powerOn).dmcIrq = false := by
    clear h
    induction k with
    | zero => rfl
    | succ k ih => rw [apuTicks_succ, tick_dmcIrq, ih]
  have inside : k < Apu.powerOn.frameSeq.length := Nat.lt_trans h (by decide)
  have frame : (apuTicks k Apu.powerOn).frameIrq = false := by
    refine (congrArg FrameSeq.frameIrq (apuTicks_frameSeq (u := Apu.powerOn) rfl rfl inside)).trans ?_
    rw [decide_eq_false (by omega), Bool.and_false]
    rfl
  rw [Apu.irqLine, dmc, frame, Bool.or_false]

theorem AtRest.captureInterrupts {s : State} (h : AtRest s) (k t d : Nat) :
    captureInterrupts (s.unitsAt k t d) = s.unitsAt k t d := by
  simp only [Machine.captureInterrupts, State.unitsAt, h.nmiPending, h.nmiRaised, h.irqRaised, h.irqPending,
    Bool.or_false]

theorem AtRest.pollInterrupts {s : State} (h : AtRest s) (k d : Nat) {t : Nat} (early : t < 29828) :
    pollInterrupts (s.unitsAt k t d) = s.unitsAt k t d := by
  have dark : (Ppu.waited s.ppu.oam s.ppu.ntRam s.ppu.palette d).nmiOutput = false := rfl
  simp only [Machine.pollInterrupts, irqLine, State.unitsAt, dark, apuTicks_irqLine early, h.cart, h.nmiRaised, h.nmiLine,
    h.irqRaised, Bool.or_false, Bool.false_and]

theorem AtRest.cycleStart {s : State} (h : AtRest s) (k t d : Nat) :
    cycleStart (s.unitsAt k t d) = s.unitsAt (k + 1) (t + 1) d := by
  have silent : (apuTicks (t + 1) Apu.powerOn).dmc.wantsByte = false := by
    rw [Dmc.wantsByte, apuTicks_bytesLeft, bne_self_eq_false, Bool.and_false]
  rw [apuTicks_succ] at silent
  simp only [Machine.cycleStart, tickApu, State.unitsAt, apuTicks_succ, silent, h.dmcRequest, Bool.or_false]

theorem AtRest.serviceDmc {s : State} (h : AtRest s) (addr : Word) (k t d : Nat) :
    serviceDmc addr (s.unitsAt k t d) = s.unitsAt k t d := by
  have delay : (s.unitsAt k t d).dmaDelay = 0 := h.dmaDelay
  have request : (s.unitsAt k t d).dmcRequest = false := h.dmcRequest
  rw [Machine.serviceDmc, delay, request, if_neg (Nat.lt_irrefl 0), if_neg Bool.false_ne_true]

/-- Internal RAM and mapped cartridge addresses: a read has no effect (20_memory.md R77, R83). -/
def ReadsOnly (addr : Word) (c : Cart) : Prop :=
  addr.toNat < 0x2000 ∨ 0x4020 ≤ addr.toNat ∧ (c.cpuRead addr).isSome = true

theorem ReadsOnly.deviceEffect {addr : Word} {s : State} (h : ReadsOnly addr s.cart) : deviceEffect addr s = s := by
  unfold Machine.deviceEffect
  rcases h with ram | ⟨above, mapped⟩
  · rw [if_pos ram]
  · rw [if_neg (by omega), if_neg (by omega), if_neg (by omega), if_neg (by omega), if_neg (by omega),
      if_neg (by omega), if_pos mapped]

/-- A read bus cycle only counts. -/
theorem AtRest.busRead {s : State} (h : AtRest s) {addr : Word} (only : ReadsOnly addr s.cart) {k : Nat} (early : k < 7) :
    (busRead addr (s.waited k)).2 = s.waited (k + 1) := by
  have split : s.params.readSplit.val ≤ 3 := Nat.le_of_lt_succ s.params.readSplit.isLt
  rw [Machine.busRead, busReadWith, State.waited, h.cycleStart, h.serviceDmc, finishRead]
  simp only [Bool.false_eq_true, if_false]
  rw [h.captureInterrupts, tickPpus_unitsAt s _ _ (by simp only [State.unitsAt]; omega),
    ReadsOnly.deviceEffect (s := s.unitsAt _ _ _) only, tickPpus_unitsAt s _ _ (by omega), h.pollInterrupts _ _ (by omega)]
  congr 1
  simp only [State.unitsAt]
  omega

/-! ### The reset sequence -/

theorem AtRest.setS {s : State} (h : AtRest s) (v : Byte) : AtRest (s.setS v) :=
  ⟨h.nmiLine, h.nmiRaised, h.nmiPending, h.irqRaised, h.irqPending, h.dmaDelay, h.dmcRequest, h.cart⟩

theorem AtRest.setP {s : State} (h : AtRest s) (f : Flags) : AtRest (s.setP f) :=
  ⟨h.nmiLine, h.nmiRaised, h.nmiPending, h.irqRaised, h.irqPending, h.dmaDelay, h.dmcRequest, h.cart⟩

theorem AtRest.resetPush {s : State} (h : AtRest s) {k : Nat} (early : k < 7) :
    resetPush (s.waited k) = (s.setS (s.s - 1)).waited (k + 1) := by
  have low := s.s.isLt
  have stack : ReadsOnly (stackAddr (s.waited k)) s.cart := .inl <| by
    rw [stackAddr_toNat, show (s.waited k).s = s.s from rfl]
    omega
  rw [Machine.resetPush, dummyStackRead, dummyRead, h.busRead stack early]
  rfl

/-- The registers after the reset sequence, before PC is loaded. -/
def State.resetRegs (s : State) : State := (s.setS (s.s - 1 - 1 - 1)).setP { s.p with i := true }

/-- The reset sequence from power-on: seven cycles that only count, and the changes of S, I and PC. -/
theorem AtRest.resetSequence {s : State} (h : AtRest s) (inRam : s.pc.toNat < 0x2000)
    (low : (s.cart.cpuRead 0xFFFC).isSome = true) (high : (s.cart.cpuRead 0xFFFD).isSome = true) :
    resetSequence (s.waited 0) = (s.resetRegs.waited 7).setPc (resetSequence (s.waited 0)).pc := by
  have fetch {k : Nat} (early : k < 7) : dummyRead (s.waited k).pc (s.waited k) = s.waited (k + 1) :=
    h.busRead (.inl inRam) early
  have pushed : resetPushed (s.waited 0) = (s.setS (s.s - 1 - 1 - 1)).waited 5 := by
    rw [resetPushed, fetch (by omega), fetch (by omega), h.resetPush (by omega), (h.setS _).resetPush (by omega),
      ((h.setS _).setS _).resetPush (by omega)]
    rfl
  have masked : resetMasked (s.waited 0) = s.resetRegs.waited 5 := by
    rw [resetMasked, pushed]
    rfl
  have rest : AtRest s.resetRegs := (h.setS _).setP _
  have lowRead : resetLow (s.waited 0) = s.resetRegs.waited 6 := by
    rw [resetLow, masked, rest.busRead (.inr ⟨by decide, low⟩) (by omega)]
  have highRead : resetHigh (s.waited 0) = s.resetRegs.waited 7 := by
    rw [resetHigh, lowRead, rest.busRead (.inr ⟨by decide, high⟩) (by omega)]
  rw [resetSequence_eq, highRead, State.setPc_pc]

end Sys2Proof.Machine
end

section
/-! PROOFS about what attaching leaves (`AttachLeaves`): the cartridge and the memories of the power-on state, then the
machine after the seven cycles of the reset sequence. -/

namespace Sys2Proof.Machine

/-! ### Memories at power-on -/

/-- Every cell of a memory built from bytes is one of them. -/
theorem Memory.all_ofBytes (q : Host.Cell → Bool) (bytes : List Byte) (a : Nat)
    (h : ∀ k (inside : k < bytes.length), q (a + k, bytes[k]) = true) : (Memory.ofBytes a bytes).all q = true := by
  induction bytes generalizing a with
  | nil => rfl
  | cons b bs ih =>
    have rest : (Memory.ofBytes (a + 1) bs).all q = true := ih (a + 1) fun k inside => by
      rw [Nat.add_right_comm]
      exact h (k + 1) (Nat.succ_lt_succ inside)
    have first : q (a, b) = true := h 0 (Nat.zero_lt_succ _)
    rw [Memory.ofBytes, Memory.cons]
    split
    case isTrue => exact rest
    case isFalse => rw [List.all_cons, first, rest, Bool.and_self]

theorem Memory.below_ofBytes {bytes : List Byte} {n : Nat} (h : bytes.length ≤ n) :
    (Memory.ofBytes 0 bytes).below n = true :=
  Memory.all_ofBytes _ bytes 0 fun k inside => decide_eq_true (by omega)

theorem Memory.below_ofBytes_take (bytes : List Byte) (n : Nat) : (Memory.ofBytes 0 (bytes.take n)).below n = true :=
  Memory.below_ofBytes (List.length_take_le n bytes)

/-- The first bytes of a list, read from a memory. -/
theorem Memory.read_ofBytes_take (bytes : List Byte) {n k : Nat} (h : k < n) :
    (Memory.ofBytes 0 (bytes.take n)).read k = bytes.getD k 0 := by
  rw [Memory.read_ofBytes_zero, ← bytes.drop_zero, getD_take_drop bytes h, Nat.zero_add, List.drop_zero]

/-- Primary OAM lacks the attribute bits that do not exist (62_ppu.md R423). -/
theorem oamOk_oamAtPowerOn (init : List Byte) : oamOk (oamAtPowerOn init) = true := by
  have cells : (oamAtPowerOn init).all (fun c => oamKeep (BitVec.ofNat 8 c.1) c.2 == c.2) = true := by
    refine Memory.all_ofBytes _ _ 0 fun k inside => ?_
    rw [List.getElem_mapIdx, Nat.zero_add, oamKeep_idem, beq_self_eq_true]
  have size : ((init.take 256).mapIdx fun i b => oamKeep (BitVec.ofNat 8 i) b).length ≤ 256 := by
    rw [List.length_mapIdx]
    exact List.length_take_le 256 init
  rw [oamOk, cells, Bool.and_true, oamAtPowerOn, Memory.wf_ofBytes, Memory.below_ofBytes size, Bool.and_self]

theorem read_oamAtPowerOn (init : List Byte) {k : Nat} (h : k < 256) :
    (oamAtPowerOn init).read k = if k % 4 = 2 then init.getD k 0 &&& 0xE3 else init.getD k 0 := by
  have index : (BitVec.ofNat 8 k).toNat = k := Nat.mod_eq_of_lt h
  have kept : oamKeep (BitVec.ofNat 8 k) 0 = 0 := by
    rw [oamKeep_eq]
    split <;> rfl
  have byte : (oamAtPowerOn init).read k = oamKeep (BitVec.ofNat 8 k) (init.getD k 0) := by
    rw [oamAtPowerOn, Memory.read_ofBytes_zero, List.getD_eq_getElem?_getD, List.getElem?_mapIdx,
      List.getElem?_take_of_lt h, List.getD_eq_getElem?_getD]
    cases init[k]? with
    | none => exact kept.symm
    | some b => rfl
  rw [byte, oamKeep_eq, index]

/-- The frame buffer after `d + 1` dots: the backdrop in the first `d` places. -/
theorem read_backdropDots (palette : Vector (BitVec 6) 32) {d : Nat} (h : d ≤ 256) (k : Nat) :
    (backdropDots palette (d + 1)).wf = true ∧
      (backdropDots palette (d + 1)).read k = if k < d then palette[0].setWidth 8 else 0 := by
  induction d generalizing k with
  | zero => exact ⟨rfl, rfl⟩
  | succ d ih =>
    obtain ⟨wf, read⟩ := ih (by omega) k
    rw [backdropDots, if_pos (by omega), Nat.add_sub_cancel]
    refine ⟨Memory.wf_write _ _ _ wf, ?_⟩
    rw [Memory.read_write _ _ _ _ wf, read]
    by_cases last : k = d
    · rw [if_pos last, if_pos (by omega)]
    · have before : k < d + 1 ↔ k < d := by omega
      simp only [last, before, if_false]

/-! ### The cartridge -/

/-- A load that is not refused passed every check. -/
theorem load_ok {l : Launch} {c : Cart} (h : load l = .ok c) :
    c = loadedCart l ∧ imageComplete l.image = true ∧ imageMapper l.image ≤ 4 ∧ saveFileOk l.image l.save = true := by
  rw [load_eq] at h
  split at h
  case isFalse => cases h
  split at h
  case isFalse => cases h
  rename_i complete
  split at h
  case isFalse => cases h
  rename_i supported
  split at h
  case isFalse => cases h
  rename_i save
  cases h
  exact ⟨rfl, complete, of_decide_eq_true supported, save⟩

/-- Cartridge RAM at attach (64_cartridge_mappers.md R573). -/
theorem read_prgRamAtAttach (l : Launch) {k : Nat} (h : k < 8192) :
    (prgRamAtAttach l).read k =
      if imageBattery l.image then (match l.save with | some bytes => bytes.getD k 0 | none => 0)
      else l.prgRamInit.getD k 0 := by
  unfold prgRamAtAttach
  split
  case isTrue =>
    cases l.save with
    | none => rfl
    | some bytes => exact Memory.read_ofBytes_zero bytes k
  case isFalse => exact Memory.read_ofBytes_take _ h

theorem prgRamAtAttach_range {l : Launch} (save : saveFileOk l.image l.save = true) :
    (prgRamAtAttach l).wf = true ∧ (prgRamAtAttach l).below 8192 = true := by
  unfold prgRamAtAttach
  split
  case isFalse => exact ⟨Memory.wf_ofBytes _, Memory.below_ofBytes_take _ _⟩
  case isTrue battery =>
    cases file : l.save with
    | none => exact ⟨rfl, rfl⟩
    | some bytes =>
      rw [saveFileOk, battery, file, Bool.not_true, Bool.false_or, Option.all_some, beq_iff_eq] at save
      exact ⟨Memory.wf_ofBytes _, Memory.below_ofBytes (Nat.le_of_eq save)⟩

/-- Pattern RAM at attach (64_cartridge_mappers.md R573). -/
theorem chr_loadedCart {l : Launch} (none_ : (loadedCart l).chrBanks8 = 0) :
    (loadedCart l).chr = Memory.ofBytes 0 (l.chrRamInit.take 8192) := by
  have announced : imageChrSize l.image = 0 := congrArg (8192 * ·) none_
  exact if_pos announced

theorem cartRange_loadedCart {l : Launch} (save : saveFileOk l.image l.save = true) (now : Nat) :
    CartRange now (loadedCart l) := by
  obtain ⟨ramWf, ramBelow⟩ := prgRamAtAttach_range save
  refine ⟨Memory.wf_ofBytes _, ramWf, ramBelow, ?chr, ?chrBelow, ?four, ?mapper⟩
  case chr =>
    unfold loadedCart
    dsimp only
    split <;> exact Memory.wf_ofBytes _
  case chrBelow =>
    by_cases none_ : (loadedCart l).chrBanks8 = 0
    · exact .inr (chr_loadedCart none_ ▸ Memory.below_ofBytes_take _ _)
    · exact .inl (beq_eq_false_iff_ne.mpr none_)
  case four => exact (Classical.em _).symm
  case mapper =>
    unfold loadedCart mapperOf
    dsimp only
    split
    case h_5 => exact decide_eq_true (Nat.zero_le now)
    all_goals rfl

/-- No mapper raises its interrupt at power-on. -/
theorem irqLine_loadedCart (l : Launch) : (loadedCart l).irqLine = false := by
  unfold Cart.irqLine loadedCart mapperOf
  dsimp only
  split
  case h_2 => rfl
  case h_1 m mapper =>
    split at mapper
    case h_5 =>
      cases mapper
      rfl
    all_goals cases mapper

/-- Program ROM answers at every address from $8000 on, for every mapper at power-on (MMC1 in its mode 3, R590). -/
theorem isSome_cpuRead_loadedCart {l : Launch} (complete : imageComplete l.image = true) {a : Word}
    (above : 0x8000 ≤ a.toNat) : ((loadedCart l).cpuRead a).isSome = true := by
  rw [imageComplete, Bool.and_eq_true, bne_iff_ne] at complete
  have banks : 0 < (loadedCart l).prgBanks16 := Nat.pos_of_mul_pos_left (Nat.pos_of_ne_zero complete.1)
  obtain ⟨program, -⟩ := bankMapping
  obtain ⟨fixed, uxrom, mmc1, mmc3⟩ := program (loadedCart l) a.toNat above a.isLt banks
  have answers {k : Nat} (place : (loadedCart l).prgIndex a.toNat = some k) :
      ((loadedCart l).cpuRead a).isSome = true := by
    rw [Cart.cpuRead_prgRom above place]
    rfl
  have mapper : (loadedCart l).mapper = mapperOf (imageMapper l.image) := rfl
  unfold mapperOf at mapper
  split at mapper
  case h_1 => exact answers (fixed (.inl mapper))
  case h_2 => exact answers ((mmc1 _ mapper).1 (by decide))
  case h_3 => exact answers (uxrom _ mapper)
  case h_4 => exact answers (fixed (.inr ⟨_, mapper⟩))
  case h_5 => exact answers (mmc3 _ mapper)

/-! ### The invariant -/

theorem reaches_resetPush (s : State) : Reaches s (resetPush s) := (reaches_dummyStackRead s).trans (reaches_setS _ _)

theorem reaches_resetMasked (s : State) : Reaches s (resetMasked s) :=
  (reaches_dummyRead _ s).trans <| (reaches_dummyRead _ _).trans <| (reaches_resetPush _).trans <|
    (reaches_resetPush _).trans <| (reaches_resetPush _).trans (reaches_setP _ _)

theorem reaches_resetSequence (s : State) : Reaches s (resetSequence s) := by
  have high : Reaches s (resetHigh s) :=
    (reaches_resetMasked s).trans ((reaches_busRead _ _).trans (reaches_busRead _ _))
  rw [resetSequence_eq]
  exact high.trans (reaches_setPc _ _)

/-- The machine at power-on with the cartridge of a launch. -/
def poweredOn (l : Launch) : State :=
  State.powerOn l.params (loadedCart l) (Memory.ofBytes 0 (l.ramInit.take 2048)) (oamAtPowerOn l.oamInit)
    (Memory.ofBytes 0 (l.vramInit.take (vramSize (loadedCart l).mirroring))) l.palInit

theorem attach_ok {l : Launch} {s : State} (h : attach l = .ok s) :
    load l = .ok (loadedCart l) ∧ imageComplete l.image = true ∧ imageMapper l.image ≤ 4 ∧
      saveFileOk l.image l.save = true ∧ s = resetSequence (poweredOn l) := by
  unfold attach at h
  split at h
  case h_1 => cases h
  case h_2 c loaded =>
    obtain ⟨rfl, complete, supported, save⟩ := load_ok loaded
    exact ⟨loaded, complete, supported, save, (Except.ok.inj h).symm⟩

theorem ppuRange_powerOn (header : Mirroring) (init : List Byte) (bytes : List Byte) (palette : Vector (BitVec 6) 32) :
    PpuRange header
      (Ppu.powerOn (oamAtPowerOn init) (Memory.ofBytes 0 (bytes.take (vramSize header))) palette) :=
  ⟨Nat.zero_le _, Nat.zero_le _, oamOk_oamAtPowerOn init, rfl, Memory.wf_ofBytes _, Memory.below_ofBytes_take _ _,
    Nat.zero_le _, (evalRange_iff SpriteEval.zero0).mp (by decide)⟩

theorem runInv_poweredOn {l : Launch} (save : saveFileOk l.image l.save = true) : runInv (poweredOn l) = true :=
  (runInv_iff _).mpr
    ⟨⟨Memory.wf_ofBytes _, Memory.below_ofBytes_take _ _, ppuRange_powerOn _ _ _ _, (apuRange_iff Apu.powerOn).mp (by decide),
      cartRange_loadedCart save _, Nat.le_refl 8, Nat.le_refl 8, Nat.zero_le _⟩, rfl⟩

/-- The reset sequence keeps the invariant, as every sequence of bus cycles and register changes does. -/
theorem runInv_resetSequence {s : State} (h : runInv s = true) : runInv (resetSequence s) = true := by
  obtain ⟨ranges, line⟩ := (runInv_iff s).mp h
  have reached := reaches_resetSequence s
  exact (runInv_iff _).mpr ⟨reached _ devicesRange_closed.closed ranges, reached _ lineSeen_closed line⟩

/-! ### The machine after attaching -/

theorem atRest_poweredOn (l : Launch) : AtRest (poweredOn l) :=
  ⟨rfl, rfl, rfl, rfl, rfl, rfl, rfl, irqLine_loadedCart l⟩

/-- Attaching leaves the power-on machine seven cycles on, with PC from the vector. -/
theorem attach_waited {l : Launch} {s : State} (h : attach l = .ok s) :
    s = ((poweredOn l).resetRegs.waited 7).setPc s.pc := by
  obtain ⟨-, complete, -, -, rfl⟩ := attach_ok h
  have mapped {a : Word} (above : 0x8000 ≤ a.toNat) := isSome_cpuRead_loadedCart complete above
  have inRam : (0 : Word).toNat < 0x2000 := by decide
  exact (atRest_poweredOn l).resetSequence inRam (mapped (by decide)) (mapped (by decide))

theorem Apu.sequencerTick_mix (u : Apu) (mix : Rat) :
    { u with mix := mix }.sequencerTick = { u.sequencerTick with mix := mix } := by
  unfold Apu.sequencerTick Apu.sequencerStep
  dsimp only
  repeat' split
  all_goals rfl

/-- A tick does not depend on the mixer's last output (63_apu.md R560). -/
theorem Apu.tick_mix (u : Apu) (mix : Rat) : { u with mix := mix }.tick = u.tick := by
  unfold Apu.tick Apu.pulseTimers
  rw [Apu.sequencerTick_mix { u with apuOdd := !u.apuOdd }]
  dsimp only
  split
  all_goals rfl

/-- A mapper at attach holds its power-on registers (64_cartridge_mappers.md R585, R587, R590, R605). -/
theorem mapperOf_variant (number : Nat) :
    mapperOf number =
      match (mapperOf number).variant with
      | 0 => .nrom
      | 1 => .mmc1 Mmc1.powerOn
      | 2 => .uxrom 0
      | 3 => .cnrom 0
      | _ => .mmc3 Mmc3.powerOn := by
  match number with
  | 0 | 1 | 2 | 3 | _ + 4 => rfl

/-- At dot `d` the rest of the picture unit holds its power-on values (62_ppu.md R420). -/
theorem Ppu.waited_eq (oam ntRam : Memory) (palette : Vector (BitVec 6) 32) (d : Nat) :
    let p := Ppu.waited oam ntRam palette d
    p = { p with
        dot := d, scanline := 0, oddFrame := false, ctrl := 0, mask := 0
        vblank := false, spr0Hit := false, sprOverflow := false
        v := 0, t := 0, fineX := 0, w := false, readBuffer := 0, oamAddr := 0, suppressVblank := false
        secOam := Vector.replicate 32 0xFF
        palette := palette
        ntRam := ntRam
        bg := { ntByte := 0, atBits := 0, ptLo := 0, ptHi := 0, bgLo := 0, bgHi := 0, atLo := 0, atHi := 0 }
        slots := Vector.replicate 8 { lo := 0, hi := 0, attr := 0, x := 0 }
        sprCount := 0, slot0IsZero := false
        eval := { n := 0, m := 0, found := 0, copy := 0, done := false, zero := false } } := rfl

theorem Ppu.read_frame_waited (oam ntRam : Memory) (palette : Vector (BitVec 6) 32) {d : Nat} (h : d ≤ 256) (k : Nat) :
    (Ppu.waited oam ntRam palette (d + 1)).frame.read k = if k < d then palette[0].setWidth 8 else 0 :=
  (read_backdropDots palette h k).2

/-- Settles O38: the sequence only counts seven cycles, so the leaves are those of the power-on state, with 7 ticks and
21 dots behind it. -/
theorem attachLeaves : Obligations.AttachLeaves := by
  intro l s attached
  have s_eq := attach_waited attached
  obtain ⟨loaded, complete, -, save, sequence⟩ := attach_ok attached
  have inv : runInv s = true := sequence ▸ runInv_resetSequence (runInv_poweredOn save)
  have mapped {a : Word} (above : 0x8000 ≤ a.toNat) := Option.isSome_iff_exists.mp (isSome_cpuRead_loadedCart complete above)
  obtain ⟨lo, hlo⟩ := mapped (a := 0xFFFC) (by decide)
  obtain ⟨hi, hhi⟩ := mapped (a := 0xFFFD) (by decide)
  have pc : s.pc = hi ++ lo := sequence ▸ resetSequence_pc hlo hhi
  have cart : s.cart = loadedCart l := by rw [s_eq]; rfl
  have apu : s.apu = apuTicks 7 Apu.powerOn := by rw [s_eq]; rfl
  have ppu : s.ppu = Ppu.waited (oamAtPowerOn l.oamInit)
      (Memory.ofBytes 0 (l.vramInit.take (vramSize (loadedCart l).mirroring))) l.palInit 21 := by rw [s_eq]; rfl
  have ram : s.ram = Memory.ofBytes 0 (l.ramInit.take 2048) := by rw [s_eq]; rfl
  refine ⟨?a, ?x, ?y, ?s, ?p, ?cycles, ?nmiLine, ?nmiRaised, ?nmiPending, ?irqRaised, ?irqPending, ?dmcRequest, ?dmaDelay,
    ?noService, ?running, ?strobe, ?pad1, ?pad2, ?ppu, ?oam, ?frame, ?apu, ?seqCycle, ?frameIrq, ?dmcIrq, ?p1, ?p2, ?tri,
    ?noise, ?dmc, ?load, ?mirroring, ?mapper, ?prgRam, ?chrRam, ?params, ?ram, ⟨lo, hi, cart ▸ hlo, cart ▸ hhi, pc⟩, inv⟩
  case ppu =>
    have size : (if (loadedCart l).headerMirroring = .fourScreen then 4096 else 2048) =
      vramSize (loadedCart l).mirroring := rfl
    rw [cart, size, ppu]
    exact Ppu.waited_eq _ _ _ 21
  case oam => rw [ppu]; exact fun k inside => read_oamAtPowerOn l.oamInit inside
  case frame => rw [ppu]; exact Ppu.read_frame_waited _ _ l.palInit (d := 20) (by decide)
  case apu =>
    rw [apu]
    exact congrArg (apuTicks 6) (Apu.tick_mix Apu.powerOn _).symm
  case load => rw [cart, loaded]
  case mirroring => rw [cart]; rfl
  case mapper => rw [cart]; exact mapperOf_variant (imageMapper l.image)
  case prgRam => rw [cart]; exact fun k inside => read_prgRamAtAttach l inside
  case chrRam =>
    intro none_ k inside
    rw [cart] at none_ ⊢
    rw [chr_loadedCart none_, Memory.read_ofBytes_take _ inside]
  case ram => rw [ram]; exact fun k inside => Memory.read_ofBytes_take _ inside
  case seqCycle | frameIrq | dmcIrq | p1 | p2 | tri | noise | dmc => rw [apu]; decide
  case s => rw [s_eq]; exact (by decide : (0 : Byte) - 1 - 1 - 1 = 0xFD)
  all_goals rw [s_eq]; rfl

end Sys2Proof.Machine
end
